-- ==== Sys2Proof/Word.lean ====
section
/-! DEFINITION. The word types of SIPHASH_CORE and their plainest arithmetic (00_scope.md R5 to R8, R10). -/

namespace Sys2Proof

/-- `u64`, the type of every datapath value and of DATA (R7, R43). -/
abbrev U64 := BitVec 64

/-- The 32-bit command word CMD (R43, R44). -/
abbrev CmdWord := BitVec 32

/-- An 8-bit unsigned value (R10). -/
abbrev Byte := BitVec 8

/-- `add64(a, b) = (a + b) mod 2^64` (R57): the carry out of bit 63 is discarded (R23, R58). -/
def add64 (a b : U64) : U64 := a + b

/-- A command as the host presents it: the word and its DATA, taken in one handshake (R43). -/
structure Command where
  word : CmdWord
  data : U64
  deriving DecidableEq, Repr

/-- A 4-tuple `(v0, v1, v2, v3)` of u64, the argument and result of the datapath functions (R9). -/
structure Vec4 where
  v0 : U64
  v1 : U64
  v2 : U64
  v3 : U64
  deriving DecidableEq, Repr

end Sys2Proof
end

