-- ==== Sys2Proof/Syntax.lean ====
section
/-! DEFINITION. The commands of SIPHASH_CORE as syntax: one constructor per row of spec/opcode_table.json
(30_encoding.md R50), with the operands of R49 and R55. Byte counts are numbers (R46, R47: "an unsigned byte count");
DATA is a 64-bit word. A command that ignores DATA (R49) has no DATA operand (DEDUCED, log entry 10; safe). Byte
counts wider than their field are no well-formed command (DESIGN CHOICE, log entry 22; safe). -/

namespace Sys2Proof

/-- The eight commands (R50). -/
inductive Instr where
  /-- No operation (R89). -/
  | nop
  /-- Load key half 0 with DATA (R67). -/
  | ldk0 (k : U64)
  /-- Load key half 1 with DATA (R68). -/
  | ldk1 (k : U64)
  /-- Start a message with a digest of OUTLEN bytes (R70). -/
  | init (outlen : Nat)
  /-- Compress the 8-byte block in DATA (R75). -/
  | absorb (m : U64)
  /-- Compress the tail, whose NB bytes are the low bytes of DATA, and finalize (R79). -/
  | final (nb : Nat) (tail : U64)
  /-- Clear the error record (R90). -/
  | clrerr
  /-- Zeroize the block (R91). -/
  | clear
  deriving DecidableEq, Repr

end Sys2Proof
end

