-- ==== Sys2Proof/WellFormed.lean ====
section
/-! DEFINITION. What an encoding can hold: the field widths of 30_encoding.md R46 and R47 for a command as syntax, and
the reserved and unused fields of R48 for a command word. -/

namespace Sys2Proof

/-- OUTLEN is an 8-bit field (R47). Values other than 8 and 16 are encodable and fail at run time. -/
def outlenFits (outlen : Nat) : Bool := outlen < 256

/-- NB is a 3-bit field: "the 3-bit width makes any other value unencodable" (R46). -/
def nbFits (nb : Nat) : Bool := nb < 8

/-- A command is well-formed when its fields fit the encoding: R55's "An assembler refuses an outlen above 255 or an
nb above 7, because those values cannot be encoded". -/
def Instr.wellFormed : Instr → Bool
  | .nop => true
  | .ldk0 _ => true
  | .ldk1 _ => true
  | .init outlen => outlenFits outlen
  | .absorb _ => true
  | .final nb _ => nbFits nb
  | .clrerr => true
  | .clear => true

/-- OP = CMD[7:0] (R44, R45). -/
def opField (w : CmdWord) : BitVec 8 := w.extractLsb' 0 8
/-- NB = CMD[10:8] (R44, R46). -/
def nbField (w : CmdWord) : BitVec 3 := w.extractLsb' 8 3
/-- RSV0 = CMD[15:11] (R44). -/
def rsv0Field (w : CmdWord) : BitVec 5 := w.extractLsb' 11 5
/-- OUTLEN = CMD[23:16] (R44, R47). -/
def outlenField (w : CmdWord) : BitVec 8 := w.extractLsb' 16 8
/-- RSV1 = CMD[31:24] (R44). -/
def rsv1Field (w : CmdWord) : BitVec 8 := w.extractLsb' 24 8

/-- OP names a command (R50): 0x00 to 0x07. -/
def opAssigned (w : CmdWord) : Bool := opField w < 8#8

/-- RSV0 and RSV1 are 0 (R48). -/
def reservedZero (w : CmdWord) : Bool := rsv0Field w == 0 && rsv1Field w == 0

/-- NB is 0 for every command but FINAL, and OUTLEN for every command but INIT (R48). -/
def unusedZero (w : CmdWord) : Bool :=
  (opField w == 5#8 || nbField w == 0) && (opField w == 3#8 || outlenField w == 0)

/-- A command word that obeys R45, R48 and R50. -/
def wordWellFormed (w : CmdWord) : Bool := opAssigned w && reservedZero w && unusedZero w

end Sys2Proof
end

