-- ==== Sys2Proof/Decode.lean ====
section
/-! DEFINITION. Decoding a command, total on every 32-bit word and any DATA, rejecting by name (30_encoding.md R50 to
R54), and after it the encoder (R55) and the reading of a table word. -/

namespace Sys2Proof

/-- Why a word is illegal: the three kinds of R52. -/
inductive IllegalKind where
  /-- (a) OP in 0x08 to 0xFF. -/
  | unassignedOpcode
  /-- (b) OP assigned, and RSV0 or RSV1 nonzero. -/
  | reservedNonzero
  /-- (c) OP assigned, reserved fields zero, and an unused NB or OUTLEN nonzero. -/
  | unusedFieldNonzero
  deriving DecidableEq, Repr

/-- One row of the opcode map (R50): its match value, its mask, and the command its fields give. -/
structure OpRow where
  mnemonic : String
  pat : CmdWord
  mask : CmdWord
  build : CmdWord → U64 → Instr

/-- The opcode map (R50), row by row; the DATA operand is that of R49. -/
def opRows : List OpRow :=
  [ ⟨"NOP",    0x00000000#32, 0xFFFFFFFF#32, fun _ _ => .nop⟩,
    ⟨"LDK0",   0x00000001#32, 0xFFFFFFFF#32, fun _ d => .ldk0 d⟩,
    ⟨"LDK1",   0x00000002#32, 0xFFFFFFFF#32, fun _ d => .ldk1 d⟩,
    ⟨"INIT",   0x00000003#32, 0xFF00FFFF#32, fun w _ => .init (outlenField w).toNat⟩,
    ⟨"ABSORB", 0x00000004#32, 0xFFFFFFFF#32, fun _ d => .absorb d⟩,
    ⟨"FINAL",  0x00000005#32, 0xFFFFF8FF#32, fun w d => .final (nbField w).toNat d⟩,
    ⟨"CLRERR", 0x00000006#32, 0xFFFFFFFF#32, fun _ _ => .clrerr⟩,
    ⟨"CLEAR",  0x00000007#32, 0xFFFFFFFF#32, fun _ _ => .clear⟩ ]

/-- `(CMD & r.mask) == r.match` (R51). -/
def OpRow.hits (r : OpRow) (w : CmdWord) : Bool := (w &&& r.mask) == r.pat

/-- The kind of an illegal word, the first in the order of R52 that it is (DESIGN CHOICE, log entry 20; safe: no effect
depends on it, R98). -/
def illegalKind (w : CmdWord) : IllegalKind :=
  if !opAssigned w then .unassignedOpcode
  else if !reservedZero w then .reservedNonzero
  else .unusedFieldNonzero

/-- Decoding (R51): the first row that matches, or ILLEGAL. DATA never selects a command (R43). -/
def decode (c : Command) : Except IllegalKind Instr :=
  match opRows.find? (fun r => r.hits c.word) with
  | some r => .ok (r.build c.word c.data)
  | none => .error (illegalKind c.word)

/-- Encoding (R55): the command word and DATA of a well-formed command; DATA is 0 where R55 gives it as 0
(DEDUCED, log entry 10; safe). -/
def encode : Instr → Command
  | .nop => ⟨0x00000000#32, 0⟩
  | .ldk0 k => ⟨0x00000001#32, k⟩
  | .ldk1 k => ⟨0x00000002#32, k⟩
  | .init outlen => ⟨0x00000003#32 ||| (BitVec.ofNat 32 outlen <<< 16), 0⟩
  | .absorb m => ⟨0x00000004#32, m⟩
  | .final nb tail => ⟨0x00000005#32 ||| (BitVec.ofNat 32 nb <<< 8), tail⟩
  | .clrerr => ⟨0x00000006#32, 0⟩
  | .clear => ⟨0x00000007#32, 0⟩

/-- A command laid out as one number: the command word in bits 31:0, DATA in bits 95:32, and every bit from `nbits` up
is 0 (DESIGN CHOICE, log entry 9; safe: the spec gives DATA no place in a table word). -/
def tableCommand (nbits w : Nat) : Command :=
  let bits := w % 2 ^ nbits
  ⟨BitVec.ofNat 32 bits, BitVec.ofNat 64 (bits >>> 32)⟩

/-- The command the decoder reads from a word numbered as spec/opcode_table.json numbers it. -/
def decodeTableWord (nbits w : Nat) : Option Instr :=
  match decode (tableCommand nbits w) with
  | .ok i => some i
  | .error _ => none

end Sys2Proof
end

