-- ==== Sys2Proof/Config.lean ====
section
/-! DEFINITION. What one SIPHASH_CORE fixes: the constants of 00_scope.md R5 and 41_key_init.md R69, and the two open
parameters of R6 as free values without a body (log entries 3 and 4). -/

namespace Sys2Proof.Config

/-- C_ROUNDS, SipRounds per compressed block (R5, R62). -/
def cRounds : Nat := 2

/-- D_ROUNDS, SipRounds per finalization output (R5, R62). -/
def dRounds : Nat := 4

/-- BLOCK_BYTES, bytes per compressed block (R5). -/
def blockBytes : Nat := 8

/-- IV0 (R69). -/
def iv0 : U64 := 0x736f6d6570736575#64
/-- IV1 (R69). -/
def iv1 : U64 := 0x646f72616e646f6d#64
/-- IV2 (R69). -/
def iv2 : U64 := 0x6c7967656e657261#64
/-- IV3 (R69). -/
def iv3 : U64 := 0x7465646279746573#64

/-- DS_INIT, XORed into V1 by INIT 16 (R69, R70). -/
def dsInit : U64 := 0xee#64
/-- The finalization constant of MODE 0 (R83). -/
def dsFinal8 : U64 := 0xff#64
/-- The finalization constant of MODE 1 (R83). -/
def dsFinal16 : U64 := 0xee#64
/-- The constant of the extended output (R85). -/
def dsExtend : U64 := 0xdd#64

/-- FREE VALUE (R6, R118, D33): what `latency` exceeds 1 by, for an opcode, at the edge with index `t`.
It has no body, so no claim can rest on a cycle count. DESIGN CHOICE: it may differ from one command to the next
(log entry 3); safe. -/
opaque latencyDraw (op : BitVec 8) (t : Nat) : Nat

/-- FREE VALUE (R6, R119, D34): what a read of LEN, H0 or H1 made while BUSY = 1 returns, for a read address, in the
cycle with index `t` (DESIGN CHOICE, log entry 4); safe. -/
opaque busyRead (addr : BitVec 3) (t : Nat) : U64

/-- `latency(op)`: finite and at least 1 (R118). -/
def latency (op : BitVec 8) (t : Nat) : Nat := latencyDraw op t + 1

end Sys2Proof.Config
end

