-- ==== Sys2Proof/Machine/Datapath.lean ====
section
/-! DEFINITION. The permutation engine (40_permutation.md R57 to R66): pure and total functions of their arguments,
which no command word selects on its own. -/

namespace Sys2Proof.Machine

/-- `rotl64(x, n)`, a left circular rotation, for n from 1 to 63 (R57). -/
def rotl64 (x : U64) (n : Nat) : U64 := (x <<< n) ||| (x >>> (64 - n))

/-- SipRound, the statements of R59 in their order, each reading the current values. -/
def sipRound (v : Vec4) : Vec4 :=
  let v0 := add64 v.v0 v.v1
  let v1 := rotl64 v.v1 13
  let v1 := v1 ^^^ v0
  let v0 := rotl64 v0 32
  let v2 := add64 v.v2 v.v3
  let v3 := rotl64 v.v3 16
  let v3 := v3 ^^^ v2
  let v0 := add64 v0 v3
  let v3 := rotl64 v3 21
  let v3 := v3 ^^^ v0
  let v2 := add64 v2 v1
  let v1 := rotl64 v1 17
  let v1 := v1 ^^^ v2
  let v2 := rotl64 v2 32
  ⟨v0, v1, v2, v3⟩

/-- `rounds(n, v)`: SipRound n times (R63). -/
def rounds : Nat → Vec4 → Vec4
  | 0, v => v
  | n + 1, v => sipRound (rounds n v)

/-- `compress(v, m)`: v3 ^= m, the c-rounds, v0 ^= m (R64). -/
def compress (v : Vec4) (m : U64) : Vec4 :=
  let a := rounds Config.cRounds { v with v3 := v.v3 ^^^ m }
  { a with v0 := a.v0 ^^^ m }

/-- `fold(v) = v0 ^ v1 ^ v2 ^ v3` (R65). -/
def fold (v : Vec4) : U64 := v.v0 ^^^ v.v1 ^^^ v.v2 ^^^ v.v3

end Sys2Proof.Machine
end

