-- ==== Sys2Proof/Machine/State.lean ====
section
/-! DEFINITION. The state of SIPHASH_CORE as plain data: every element of 10_state.md R11, the command in flight (R24),
the host's script as environment data (log entry 2), and the value of each right after reset (R112). -/

namespace Sys2Proof.Machine

/-- MODE, the output length of the message in progress (R15). One bit of STATUS (DEDUCED, log entry 6; safe). -/
inductive Mode where
  /-- 0: an 8-byte digest, SipHash-2-4. -/
  | bytes8
  /-- 1: a 16-byte digest, SipHash128. -/
  | bytes16
  deriving DecidableEq, Repr

/-- PHASE (R16). The fourth value 0b11 is never held (DEDUCED, log entry 6; safe). -/
inductive Phase where
  /-- 0b00: no message in progress and no digest held. -/
  | idle
  /-- 0b01: a message is in progress. -/
  | absorb
  /-- 0b10: the last message is finished and H0, H1 hold its digest. -/
  | done
  deriving DecidableEq, Repr

/-- The causes ERR can hold (R96). Code 0, "no error recorded", is `none` in `State.err`; codes 5 to 7 are never
written (R96; DEDUCED, log entry 6; safe). -/
inductive ErrorCause where
  /-- 1: the word matches no row of the opcode map (R98). -/
  | illegalCommand
  /-- 2: ABSORB or FINAL with PHASE not ABSORB (R99). -/
  | sequenceError
  /-- 3: INIT with KEYV not 0b11 (R100). -/
  | invalidKeyLength
  /-- 4: INIT with OUTLEN neither 8 nor 16 (R101). -/
  | unsupportedOutputLength
  deriving DecidableEq, Repr

/-- The command in flight while BUSY = 1 (R24): what the accepting edge sampled (R117), and how many cycles BUSY
still stays 1 (R118). -/
structure InFlight where
  cmd : Command
  left : Nat
  deriving DecidableEq, Repr

/-- What the host drives on the input ports in one cycle (R28). -/
structure Pins where
  rstN : Bool
  cmdValid : Bool
  cmdWord : CmdWord
  cmdData : U64
  rdAddr : BitVec 3
  deriving DecidableEq, Repr

/-- One entry of the host's script (DESIGN CHOICE, log entries 2 and 16; safe). -/
inductive HostAct where
  /-- Hold cmd_valid, cmd_word and cmd_data stable until the accepting edge (R117). -/
  | send (c : Command)
  /-- Poll STATUS until BUSY = 0 (R41; the WAIT of R56(c)). -/
  | wait
  /-- Drive these pins for one cycle, whatever they are: a reset, a read, a withdrawn command, an idle cycle. -/
  | cycle (p : Pins)
  deriving DecidableEq, Repr

/-- The state. Every field is plain data. -/
structure State where
  /-- V0 (R12). -/
  v0 : U64
  /-- V1 (R12). -/
  v1 : U64
  /-- V2 (R12). -/
  v2 : U64
  /-- V3 (R12). -/
  v3 : U64
  /-- K0, write-only (R13). -/
  k0 : U64
  /-- K1, write-only (R13). -/
  k1 : U64
  /-- KEYV (R14): bit 0 for K0, bit 1 for K1. -/
  keyv : BitVec 2
  /-- MODE (R15). -/
  mode : Mode
  /-- PHASE (R16). -/
  phase : Phase
  /-- LEN, message bytes taken since the last INIT, modulo 2^64 (R17). -/
  len : U64
  /-- H0 (R18). -/
  h0 : U64
  /-- H1 (R18). -/
  h1 : U64
  /-- ERR (R19); `none` is code 0. -/
  err : Option ErrorCause
  /-- The command in flight (R24); BUSY (R20) is 1 exactly when there is one (DEDUCED, log entry 5; safe). -/
  inflight : Option InFlight
  /-- ENVIRONMENT: the host's remaining script (DESIGN CHOICE, log entry 2; safe). -/
  host : List HostAct
  /-- ENVIRONMENT: the index of the host's next command, R22's optional pc (DEDUCED, log entry 17; safe). -/
  cmdIndex : Nat
  /-- The MODEL'S OWN: edges so far, the index `t` of the draws (log entries 3 and 4). -/
  time : Nat
  deriving DecidableEq, Repr

/-- Nothing stops this machine: an error is a code in ERR and the block goes on (R66, R97, R105). The type is
empty, so no step can fault (DEDUCED, log entry 11; safe). -/
inductive Fault
  deriving DecidableEq, Repr

/-- What the model refuses. -/
inductive Refusal where
  /-- Raised only by an arm of `exec` whose command has no meaning yet; safe. No arm raises it. -/
  | notModelled (mnemonic : String)
  deriving DecidableEq, Repr

/-- What a meaning and a step answer. -/
abbrev StepResult := Host.Outcome State Fault Refusal

/-- Right after reset (R11, R112): every element of the block is 0, PHASE is IDLE and no command is in flight. The
environment's and the model's own fields start empty (DESIGN CHOICE, log entry 7; unsafe, and no statement rests on
it). The state before the first reset is not modelled (DEDUCED, log entry 18; safe). -/
def State.reset : State where
  v0 := 0
  v1 := 0
  v2 := 0
  v3 := 0
  k0 := 0
  k1 := 0
  keyv := 0b00#2
  mode := .bytes8
  phase := .idle
  len := 0
  h0 := 0
  h1 := 0
  err := none
  inflight := none
  host := []
  cmdIndex := 0
  time := 0

end Sys2Proof.Machine
end

