-- ==== Sys2Proof/Machine/Flags.lean ====
section
/-! DEFINITION. STATUS and its fields as bits (10_state.md R14 to R16, R20, R21; 60_exceptions.md R96). The block has no
other flags: an addition produces no carry and no overflow flag (R23). -/

namespace Sys2Proof.Machine

/-- PHASE as its 2-bit field (R16). -/
def Phase.bits : Phase → BitVec 2
  | .idle => 0b00#2
  | .absorb => 0b01#2
  | .done => 0b10#2

/-- MODE as its bit (R15). -/
def Mode.bit : Mode → BitVec 1
  | .bytes8 => 0#1
  | .bytes16 => 1#1

/-- The code of an error (R96). -/
def ErrorCause.code : ErrorCause → BitVec 3
  | .illegalCommand => 1#3
  | .sequenceError => 2#3
  | .invalidKeyLength => 3#3
  | .unsupportedOutputLength => 4#3

/-- ERR as its 3-bit field: 0 when no error has been recorded (R19, R96). -/
def State.errBits (s : State) : BitVec 3 :=
  match s.err with
  | none => 0#3
  | some e => e.code

/-- BUSY (R20): a command is in flight. -/
def State.busy (s : State) : Bool := s.inflight.isSome

/-- STATUS (R21), from bit 63 down: reserved, ERR[10:8], reserved, KEYV[5:4], MODE[3], PHASE[2:1], BUSY[0]. -/
def State.status (s : State) : U64 :=
  0#53 ++ s.errBits ++ 0#2 ++ s.keyv ++ s.mode.bit ++ s.phase.bits ++ BitVec.ofBool s.busy

end Sys2Proof.Machine
end

