-- ==== Sys2Proof/Machine/Operands.lean ====
section
/-! DEFINITION. Operand forms: the little-endian packing of byte strings (00_scope.md R10, 20_memory.md R31 to R35),
the tail mask of 43_finalization.md R80, and the two fields' widening (30_encoding.md R46). -/

namespace Sys2Proof.Machine

/-- `le64(b0, ..., b7)`: byte i in bits 8i+7:8i (R10). -/
def le64 (b0 b1 b2 b3 b4 b5 b6 b7 : Byte) : U64 := b7 ++ b6 ++ b5 ++ b4 ++ b3 ++ b2 ++ b1 ++ b0

/-- Byte i of a word, x[8i+7:8i] (R10, R31). -/
def byteOf (x : U64) (i : Nat) : Byte := x.extractLsb' (8 * i) 8

/-- `le64_bytes(x)`: the 8 bytes x[7:0], ..., x[63:56], in that order (R10). -/
def le64Bytes (x : U64) : List Byte :=
  [byteOf x 0, byteOf x 1, byteOf x 2, byteOf x 3, byteOf x 4, byteOf x 5, byteOf x 6, byteOf x 7]

/-- The word of the 8 bytes of `s` from offset `o`; a byte past the end reads 0, the zero padding of R56(b). -/
def le64At (s : List Byte) (o : Nat) : U64 :=
  le64 (s.getD o 0) (s.getD (o + 1) 0) (s.getD (o + 2) 0) (s.getD (o + 3) 0)
    (s.getD (o + 4) 0) (s.getD (o + 5) 0) (s.getD (o + 6) 0) (s.getD (o + 7) 0)

/-- The full blocks m_j = le64(msg[8j], ..., msg[8j+7]), 0 <= j < floor(n / 8), in increasing j (R33). -/
def messageBlocks (msg : List Byte) : List U64 :=
  (List.range (msg.length / Config.blockBytes)).map (fun j => le64At msg (Config.blockBytes * j))

/-- The tail length `left = n mod 8` (R34). -/
def tailLength (msg : List Byte) : Nat := msg.length % Config.blockBytes

/-- The tail bytes, from offset 8 * floor(n / 8), zero-padded to a word (R34, R56(b)). -/
def tailWord (msg : List Byte) : U64 := le64At msg (Config.blockBytes * (msg.length / Config.blockBytes))

/-- `tailmask(nb) = 2^(8 * nb) - 1`: the mask of the low nb bytes (R80). -/
def tailMask (nb : Nat) : U64 := BitVec.ofNat 64 (2 ^ (8 * nb) - 1)

/-- `zext_64(NB)` (R46). -/
def zextNb (nb : Nat) : U64 := BitVec.ofNat 64 nb

/-- `zext_64(L[7:0]) << 56`, the length tag in bits 63:56 (R82). -/
def lengthTag (total : U64) : U64 := (total.extractLsb' 0 8).setWidth 64 <<< 56

/-- `KEYV[0] <- 1` (R67). -/
def setKeyv0 (keyv : BitVec 2) : BitVec 2 := keyv ||| 0b01#2

/-- `KEYV[1] <- 1` (R68). -/
def setKeyv1 (keyv : BitVec 2) : BitVec 2 := keyv ||| 0b10#2

end Sys2Proof.Machine
end

