-- ==== Sys2Proof/Machine/Ops.lean ====
section
/-! DEFINITION. The named operations over the state: the state words as one tuple, recording an error and clearing the
record, zeroizing, the read port, and the handshake on the edges of clk. -/

namespace Sys2Proof.Machine

/-- V0..V3 as the datapath's 4-tuple (R9, R12). -/
def State.vec (s : State) : Vec4 := ⟨s.v0, s.v1, s.v2, s.v3⟩

/-- `(V0, V1, V2, V3) <- v` (R75, R79). -/
def State.setVec (v : Vec4) (s : State) : State := { s with v0 := v.v0, v1 := v.v1, v2 := v.v2, v3 := v.v3 }

/-! ### Errors (60_exceptions.md) -/

/-- `raise E` (R97), the block's counterpart of taking an exception: nothing changes but ERR, and ERR only when it
holds no error (R102, R106). Every check precedes the command's first write, so there is nothing to discard. There is
no trap entry: no state is saved and no mode changes (R105). -/
def State.raise (e : ErrorCause) (s : State) : State :=
  match s.err with
  | none => { s with err := some e }
  | some _ => s

/-- `ERR <- 0` (R90). There is no trap return (R106); this is its only counterpart. -/
def State.clearErr (s : State) : State := { s with err := none }

/-! ### Zeroizing: CLEAR and reset -/

/-- Every element of R11 but BUSY takes its reset value (R91, R112). -/
def State.zeroize (s : State) : State :=
  { s with
    v0 := 0, v1 := 0, v2 := 0, v3 := 0
    k0 := 0, k1 := 0, keyv := 0b00#2
    mode := .bytes8, phase := .idle, len := 0
    h0 := 0, h1 := 0, err := none }

/-- An edge that samples rst_n = 0 (R112, R113): everything is zeroized and the command in flight is abandoned. -/
def State.resetBlock (s : State) : State := { s.zeroize with inflight := none }

/-! ### The read port -/

/-- The read map with BUSY = 0 (R29). -/
def State.readMap (s : State) (addr : BitVec 3) : U64 :=
  if addr = 0#3 then s.status
  else if addr = 1#3 then s.len
  else if addr = 2#3 then s.h0
  else if addr = 3#3 then s.h1
  else 0

/-- A host read, `rd_data` at `rd_addr` in this cycle (R29, R92): while BUSY = 1, addresses 1 to 3 return the draw
`busy_read(addr, t)` (R119). A read changes no state (R30); it is a function of the state before the edge that ends its
cycle (DEDUCED, log entry 12; safe). -/
def State.readPort (s : State) (addr : BitVec 3) : U64 :=
  if s.busy && (addr = 1#3 || addr = 2#3 || addr = 3#3) then Config.busyRead addr s.time
  else s.readMap addr

/-- The digest bytes the host forms from H0 and H1 (R35). -/
def State.digest (s : State) : List Byte :=
  match s.mode with
  | .bytes8 => le64Bytes s.h0
  | .bytes16 => le64Bytes s.h0 ++ le64Bytes s.h1

/-- A digest is valid (R87, R120): PHASE = DONE and BUSY = 0. -/
def State.digestValid (s : State) : Bool := s.phase = .done && !s.busy

/-! ### The host's pins -/

/-- An idle cycle: rst_n = 1 and no command. -/
def Pins.idle : Pins := ⟨true, false, 0, 0, 0⟩

/-- The pins a script entry drives (R117; DESIGN CHOICE, log entries 2 and 16; safe). -/
def HostAct.pins : HostAct → Pins
  | .send c => ⟨true, true, c.word, c.data, 0⟩
  | .wait => Pins.idle
  | .cycle p => p

/-- The pins in this cycle; a host whose script is empty idles (DESIGN CHOICE, log entry 16; safe). -/
def State.pins (s : State) : Pins :=
  match s.host with
  | [] => Pins.idle
  | a :: _ => a.pins

/-- `cmd_ready` (R28, R116): NOT BUSY while rst_n = 1, and 0 while rst_n = 0. -/
def State.cmdReady (s : State) : Bool := s.pins.rstN && !s.busy

/-- `rd_data` in this cycle, combinationally (R28). -/
def State.rdData (s : State) : U64 := s.readPort s.pins.rdAddr

/-! ### One rising edge of clk -/

/-- What a rising edge does. -/
inductive Edge where
  /-- rst_n = 0 is sampled (R112). -/
  | reset
  /-- The command is accepted (R117). -/
  | accept (c : Command)
  /-- The command in flight stays in flight (R118). -/
  | busy (f : InFlight)
  /-- The last of `latency(op)` cycles: all effects appear at once and BUSY falls (R118). -/
  | complete (c : Command)
  /-- Nothing is presented and nothing is in flight. -/
  | idle
  deriving DecidableEq, Repr

/-- The kind of this edge: reset dominates (R113); a busy block accepts nothing (R116, R118); a command is accepted
where rst_n, cmd_valid and cmd_ready are all 1 (R117). Every signal is sampled before the edge, so the first edge that
can accept again is the one after the completion (DEDUCED, log entries 13 and 15; safe). What is accepted is what the
pins hold at that edge (DEDUCED, log entry 14; unsafe only for a host that breaks R117). -/
def State.edge (s : State) : Edge :=
  if s.pins.rstN then
    match s.inflight with
    | some f => if f.left ≤ 1 then .complete f.cmd else .busy f
    | none => if s.pins.cmdValid then .accept ⟨s.pins.cmdWord, s.pins.cmdData⟩ else .idle
  else .reset

/-- The host's script after this edge: a command is held until it is accepted (R117), a WAIT ends in a cycle that
reads BUSY = 0 (R41, R56), any other entry lasts one cycle (DESIGN CHOICE, log entry 16; safe). -/
def State.hostNext (s : State) : List HostAct :=
  match s.host with
  | [] => []
  | .send c :: rest => if s.edge = .accept c then rest else s.host
  | .wait :: rest => if s.busy then s.host else rest
  | .cycle _ :: rest => rest

/-- The environment's share of an edge: the script and the draw index move on; the block does not change. -/
def State.tick (s : State) : State := { s with host := s.hostNext, time := s.time + 1 }

/-- Accepting a command at the edge with index `t` (R117, R118): BUSY becomes 1 and stays so for `latency(op)` cycles;
the host's index moves on (R22). -/
def State.accept (c : Command) (t : Nat) (s : State) : State :=
  { s with inflight := some ⟨c, Config.latency (opField c.word) t⟩, cmdIndex := s.cmdIndex + 1 }

/-- One more cycle with BUSY = 1 (R118). -/
def State.countDown (f : InFlight) (s : State) : State := { s with inflight := some { f with left := f.left - 1 } }

/-- BUSY falls to 0 (R118). -/
def State.retire (s : State) : State := { s with inflight := none }

/-- The command placed where the next edge runs it: in flight, in its last busy cycle, while the host drives one idle
cycle (DESIGN CHOICE, log entry 8; unsafe only for a claim about how a program arrives). -/
def State.place (c : Command) (s : State) : State :=
  { s with inflight := some ⟨c, 1⟩, host := .cycle Pins.idle :: s.host }

end Sys2Proof.Machine
end

