-- ==== Sys2Proof/Machine/Compression.lean ====
section
/-! DEFINITION. ABSORB (42_compression.md R74 to R77). -/

namespace Sys2Proof.Machine

/-- The writes of a successful ABSORB (R75): the block is compressed and LEN gains 8 modulo 2^64. -/
def State.absorbBlock (m : U64) (s : State) : State :=
  { s.setVec (compress s.vec m) with len := add64 s.len (BitVec.ofNat 64 Config.blockBytes) }

/-- ABSORB (R75): legal only in PHASE = ABSORB (R99). -/
def execAbsorb (m : U64) (s : State) : StepResult :=
  if s.phase ≠ .absorb then .next (s.raise .sequenceError) else .next (s.absorbBlock m)

end Sys2Proof.Machine
end

