-- ==== Sys2Proof/Machine/Control.lean ====
section
/-! DEFINITION. NOP, CLRERR and CLEAR (44_control.md R89 to R91), and what an illegal word does (60_exceptions.md R98). -/

namespace Sys2Proof.Machine

/-- NOP (R89): no state is written. -/
def execNop (s : State) : StepResult := .next s

/-- CLRERR (R90): `ERR <- 0`. -/
def execClrerr (s : State) : StepResult := .next s.clearErr

/-- CLEAR (R91): every element of R11 but BUSY takes its reset value. -/
def execClear (s : State) : StepResult := .next s.zeroize

/-- A word that decodes to ILLEGAL (R52, R98): IllegalCommand, and no other effect. -/
def illegalCommand (s : State) : StepResult := .next (s.raise .illegalCommand)

end Sys2Proof.Machine
end

