-- ==== Sys2Proof/Machine/Finalization.lean ====
section
/-! DEFINITION. FINAL (43_finalization.md R78 to R88). -/

namespace Sys2Proof.Machine

/-- The total length `L = LEN + NB`, modulo 2^64 (R81). -/
def totalLength (len : U64) (nb : Nat) : U64 := add64 len (zextNb nb)

/-- The tail block `b = (zext_64(L[7:0]) << 56) | (DATA & tailmask(NB))` (R80, R82). -/
def tailBlock (total : U64) (nb : Nat) (data : U64) : U64 := lengthTag total ||| (data &&& tailMask nb)

/-- The constant XORed into v2 (R83). -/
def finalConstant : Mode → U64
  | .bytes8 => Config.dsFinal8
  | .bytes16 => Config.dsFinal16

/-- The working tuple whose fold is H0 (R79, R83, R84): the tail block compressed, the constant, the d-rounds. -/
def firstOutput (mode : Mode) (v : Vec4) (b : U64) : Vec4 :=
  let v := compress v b
  rounds Config.dRounds { v with v2 := v.v2 ^^^ finalConstant mode }

/-- The working tuple whose fold is H1 in MODE 1 (R85); it goes on from the first output's. -/
def secondOutput (v : Vec4) : Vec4 := rounds Config.dRounds { v with v1 := v.v1 ^^^ Config.dsExtend }

/-- The writes of a successful FINAL (R79): the digest, LEN, V0..V3 zeroed (R86), PHASE. In MODE 0, H1 is not
written. -/
def State.finishMessage (nb : Nat) (data : U64) (s : State) : State :=
  let total := totalLength s.len nb
  let v := firstOutput s.mode s.vec (tailBlock total nb data)
  { s with
    h0 := fold v
    h1 := (match s.mode with
      | .bytes8 => s.h1
      | .bytes16 => fold (secondOutput v))
    len := total
    v0 := 0, v1 := 0, v2 := 0, v3 := 0
    phase := .done }

/-- FINAL (R79): legal only in PHASE = ABSORB (R99). -/
def execFinal (nb : Nat) (data : U64) (s : State) : StepResult :=
  if s.phase ≠ .absorb then .next (s.raise .sequenceError) else .next (s.finishMessage nb data)

end Sys2Proof.Machine
end

