-- ==== Sys2Proof/Machine/KeyInit.lean ====
section
/-! DEFINITION. LDK0, LDK1 and INIT (41_key_init.md R67 to R73). -/

namespace Sys2Proof.Machine

/-- LDK0 (R67): `K0 <- DATA; KEYV[0] <- 1`, in every PHASE. -/
def execLdk0 (k : U64) (s : State) : StepResult := .next { s with k0 := k, keyv := setKeyv0 s.keyv }

/-- LDK1 (R68): `K1 <- DATA; KEYV[1] <- 1`, in every PHASE. -/
def execLdk1 (k : U64) (s : State) : StepResult := .next { s with k1 := k, keyv := setKeyv1 s.keyv }

/-- OUTLEN selects the mode (R47, R70): 8 and 16 only. -/
def modeOf (outlen : Nat) : Option Mode :=
  if outlen = 8 then some .bytes8
  else if outlen = 16 then some .bytes16
  else none

/-- The initial state words (R69, R70): the four key XORs, and DS_INIT on V1 when OUTLEN = 16. -/
def initVec (k0 k1 : U64) (mode : Mode) : Vec4 :=
  let v3 := k1 ^^^ Config.iv3
  let v2 := k0 ^^^ Config.iv2
  let v1 := k1 ^^^ Config.iv1
  let v0 := k0 ^^^ Config.iv0
  match mode with
  | .bytes8 => ⟨v0, v1, v2, v3⟩
  | .bytes16 => ⟨v0, v1 ^^^ Config.dsInit, v2, v3⟩

/-- The writes of a successful INIT (R70), from any PHASE (R71). ERR is left alone (R106). -/
def State.startMessage (mode : Mode) (s : State) : State :=
  { s.setVec (initVec s.k0 s.k1 mode) with mode := mode, len := 0, h0 := 0, h1 := 0, phase := .absorb }

/-- INIT (R70): the key check comes first, then the OUTLEN check (R103). -/
def execInit (outlen : Nat) (s : State) : StepResult :=
  if s.keyv ≠ 0b11#2 then .next (s.raise .invalidKeyLength)
  else
    match modeOf outlen with
    | none => .next (s.raise .unsupportedOutputLength)
    | some mode => .next (s.startMessage mode)

end Sys2Proof.Machine
end

