-- ==== Sys2Proof/Machine/Dispatch.lean ====
section
/-! DEFINITION. One arm per command. -/

namespace Sys2Proof.Machine

/-- The effect of a command's rule on the state, at the edge on which all of it appears (R118). -/
def exec (i : Instr) (s : State) : Host.Outcome State Fault Refusal :=
  match i with
  | .nop => Sys2Proof.Machine.execNop s
  | .ldk0 k => Sys2Proof.Machine.execLdk0 k s
  | .ldk1 k => Sys2Proof.Machine.execLdk1 k s
  | .init outlen => Sys2Proof.Machine.execInit outlen s
  | .absorb m => Sys2Proof.Machine.execAbsorb m s
  | .final nb tail => Sys2Proof.Machine.execFinal nb tail s
  | .clrerr => Sys2Proof.Machine.execClrerr s
  | .clear => Sys2Proof.Machine.execClear s

end Sys2Proof.Machine
end

