-- ==== Sys2Proof/Machine/Step.lean ====
section
/-! DEFINITION. One step of the machine is one rising edge of clk (70_reset_and_hazards.md R112, R116 to R118; log entry
1). -/

namespace Sys2Proof.Machine

/-- Running an accepted command: decoding comes before everything else (R103), and an illegal word raises
IllegalCommand (R98). It decodes at the completing edge; R54 makes that the same as decoding at acceptance (DESIGN
CHOICE, log entry 21; safe). -/
def execCommand (c : Command) (s : State) : StepResult :=
  match decode c with
  | .ok i => exec i s
  | .error _ => illegalCommand s

/-- One rising edge of clk, finer than D1's transaction (DESIGN CHOICE, log entry 1; safe). -/
def step (s : State) : StepResult :=
  match s.edge with
  | .reset => .next s.tick.resetBlock
  | .accept c => .next (s.tick.accept c s.time)
  | .busy f => .next (s.tick.countDown f)
  | .complete c => execCommand c s.tick.retire
  | .idle => .next s.tick

/-- `s` with the command of a table word placed so that the very next edge runs it (DESIGN CHOICE, log entries 8 and
9). -/
def State.withFetchWord (s : State) (nbits w : Nat) : State := s.place (tableCommand nbits w)

end Sys2Proof.Machine
end

