-- ==== Sys2Proof/Machine/Assembler.lean ====
section
/-! DEFINITION. The assembler's lines (30_encoding.md R55) and its pseudo-commands (R56), as syntax trees, and the host
script each stands for. -/

namespace Sys2Proof.Machine

/-- One assembler line (R55, R56), as a syntax tree: no text is read (DESIGN CHOICE, log entry 19; safe). -/
inductive AsmLine where
  /-- A command in the syntax of R55. -/
  | cmd (i : Instr)
  /-- `.word <imm32>[, <imm64>]`: a raw command, unchecked (R55). -/
  | word (imm32 : Nat) (imm64 : Nat)
  /-- `LDKEY <16 bytes>` (R56(a)). -/
  | ldkey (key : List Byte)
  /-- `HASH <outlen>, <n bytes msg>` (R56(b)). -/
  | hash (outlen : Nat) (msg : List Byte)
  /-- `WAIT` (R56(c)): encodes to nothing. -/
  | wait
  deriving DecidableEq, Repr

/-- What an assembler accepts (R55, R56): values that can be encoded, and a key of 16 bytes. -/
def AsmLine.wellFormed : AsmLine → Bool
  | .cmd i => i.wellFormed
  | .word imm32 imm64 => imm32 < 2 ^ 32 && imm64 < 2 ^ 64
  | .ldkey key => key.length = 16
  | .hash outlen _ => outlenFits outlen
  | .wait => true

/-- LDKEY (R32, R56(a)): `LDK0 le64(b0..b7)` then `LDK1 le64(b8..b15)`. -/
def keyCommands (key : List Byte) : List Instr := [.ldk0 (le64At key 0), .ldk1 (le64At key 8)]

/-- HASH (R56(b)): INIT, one ABSORB per full block in order, and FINAL with the zero-padded tail. -/
def hashCommands (outlen : Nat) (msg : List Byte) : List Instr :=
  .init outlen :: (messageBlocks msg).map .absorb ++ [.final (tailLength msg) (tailWord msg)]

/-- The commands a line encodes to. -/
def AsmLine.commands : AsmLine → List Command
  | .cmd i => [encode i]
  | .word imm32 imm64 => [⟨BitVec.ofNat 32 imm32, BitVec.ofNat 64 imm64⟩]
  | .ldkey key => (keyCommands key).map encode
  | .hash outlen msg => (hashCommands outlen msg).map encode
  | .wait => []

/-- The host script of a line: each command is presented until accepted; WAIT polls STATUS. Refused when the line is
not well-formed. -/
def assembleLine (l : AsmLine) : Option (List HostAct) :=
  if l.wellFormed then
    match l with
    | .wait => some [.wait]
    | _ => some (l.commands.map .send)
  else none

/-- The host script of a program: refused when any line is. -/
def assemble : List AsmLine → Option (List HostAct)
  | [] => some []
  | l :: rest =>
    match assembleLine l, assemble rest with
    | some a, some b => some (a ++ b)
    | _, _ => none

end Sys2Proof.Machine
end

