-- ==== Sys2Proof/Safety.lean ====
section
/-! DEFINITION. The terms in which claims are stated: the invariant of the block, what a failing command leaves, runs
of commands, what an observer of the read port may learn, and the source's algorithm over byte strings. -/

namespace Sys2Proof.Machine

/-- The next state of a result, for tests. -/
def nextState? : StepResult → Option State
  | .next s => some s
  | .fault _ => none
  | .refused _ => none

/-! ### The invariant -/

/-- V0..V3 are zero while no message is in progress (10_state.md R16; R12, R86). -/
abbrev State.vecZeroOutsideMessage (s : State) : Prop :=
  s.phase ≠ .absorb → s.v0 = 0 ∧ s.v1 = 0 ∧ s.v2 = 0 ∧ s.v3 = 0

/-- In any PHASE but DONE, H0 and H1 read 0 (R87, R120). -/
abbrev State.noDigestOutsideDone (s : State) : Prop := s.phase ≠ .done → s.h0 = 0 ∧ s.h1 = 0

/-- In MODE 0, H1 stays 0 (R18). -/
abbrev State.shortDigestHasNoH1 (s : State) : Prop := s.mode = .bytes8 → s.h1 = 0

/-- In IDLE no message was started since reset or CLEAR, so LEN and MODE hold their reset values (R11, R16, R99). -/
abbrev State.idleIsFresh (s : State) : Prop := s.phase = .idle → s.len = 0 ∧ s.mode = .bytes8

/-- A message was started only with both key halves loaded (R14, R100). -/
abbrev State.messageHasKey (s : State) : Prop := s.phase ≠ .idle → s.keyv = 0b11#2

/-- A key half never loaded since reset or CLEAR holds its reset value (R11, R14). -/
abbrev State.unloadedKeyZero (s : State) : Prop :=
  (s.keyv.getLsbD 0 = false → s.k0 = 0) ∧ (s.keyv.getLsbD 1 = false → s.k1 = 0)

/-- While a message is in progress LEN counts whole blocks of 8 bytes (R17, R37). -/
abbrev State.lenCountsBlocks (s : State) : Prop := s.phase = .absorb → s.len.toNat % 8 = 0

/-- A command in flight has at least one busy cycle left (R118). -/
abbrev State.busyHasCyclesLeft (s : State) : Prop := s.inflight.all (fun f => 1 ≤ f.left) = true

/-- The invariant of the block. -/
abbrev State.Inv (s : State) : Prop :=
  s.vecZeroOutsideMessage ∧ s.noDigestOutsideDone ∧ s.shortDigestHasNoH1 ∧ s.idleIsFresh ∧ s.messageHasKey ∧
    s.unloadedKeyZero ∧ s.lenCountsBlocks ∧ s.busyHasCyclesLeft

/-! ### Errors -/

/-- What a failing command leaves (R97): ERR holds the code if it held none, and nothing else changes. -/
def State.recorded (e : ErrorCause) (s : State) : State := if s.err = none then { s with err := some e } else s

/-- R52's three kinds, on the word as a number: OP is bits 7:0, NB 10:8, RSV0 15:11, OUTLEN 23:16, RSV1 31:24. -/
def illegalWord (w : CmdWord) : Bool :=
  let n := w.toNat
  let op := n % 256
  let nb := n / 2 ^ 8 % 8
  let rsv0 := n / 2 ^ 11 % 32
  let outlen := n / 2 ^ 16 % 256
  let rsv1 := n / 2 ^ 24
  8 ≤ op || (rsv0 ≠ 0 || rsv1 ≠ 0) || ((nb ≠ 0 && op ≠ 5) || (outlen ≠ 0 && op ≠ 3))

/-- The one error a command raises, in the order of R103. -/
def errorOf (c : Command) (s : State) : Option ErrorCause :=
  let op := c.word.toNat % 256
  let outlen := c.word.toNat / 2 ^ 16 % 256
  if illegalWord c.word then some .illegalCommand
  else if (op = 4 || op = 5) && s.phase ≠ .absorb then some .sequenceError
  else if op = 3 && s.keyv ≠ 0b11#2 then some .invalidKeyLength
  else if op = 3 && (outlen ≠ 8 && outlen ≠ 16) then some .unsupportedOutputLength
  else none

/-! ### Runs of commands -/

/-- The commands of a list, one after another, each with the effect of its rule (R40). -/
def runCommands : List Command → State → StepResult
  | [], s => .next s
  | c :: cs, s =>
    match execCommand c s with
    | .next t => runCommands cs t
    | .fault r => .fault r
    | .refused r => .refused r

/-- A command that does not touch V0..V3 or LEN while a message is in progress with its key loaded (R76): NOP, LDK0,
LDK1 and CLRERR, an illegal word, and an INIT that fails. -/
def sparesMessage (c : Command) : Bool :=
  match decode c with
  | .ok .nop => true
  | .ok (.ldk0 _) => true
  | .ok (.ldk1 _) => true
  | .ok (.init outlen) => outlen ≠ 8 && outlen ≠ 16
  | .ok (.absorb _) => false
  | .ok (.final _ _) => false
  | .ok .clrerr => true
  | .ok .clear => false
  | .error _ => true

/-- The block a command absorbs, when it is an ABSORB. -/
def absorbedBlock (c : Command) : Option U64 :=
  match decode c with
  | .ok (.absorb m) => some m
  | _ => none

/-! ### What the read port shows -/

/-- Two states that agree on everything but V0..V3, K0 and K1, which have no read address (R29). -/
def State.sameButSecrets (s t : State) : Prop :=
  t = { s with v0 := t.v0, v1 := t.v1, v2 := t.v2, v3 := t.v3, k0 := t.k0, k1 := t.k1 }

/-- The same state up to the environment's share of it: the script, the host's index and the draw index. -/
def State.sameBlock (s t : State) : Prop := t = { s with host := t.host, cmdIndex := t.cmdIndex, time := t.time }

/-- The end of a run (R124): the host has presented every command of its script, each has been accepted, and BUSY = 0.
Script entries after the last command, a wait or a driven cycle, must have passed too: R124 speaks only of commands, and
WAIT is none (R56(c)) (DESIGN CHOICE, log entry 23; safe: where this holds, R124's condition holds). -/
def State.runEnded (s : State) : Bool := s.host.isEmpty && !s.busy

/-- What is observed at the end of a run: the read map (R124), address by address. -/
def State.observation (s : State) : List U64 :=
  [s.readPort 0, s.readPort 1, s.readPort 2, s.readPort 3, s.readPort 4, s.readPort 5, s.readPort 6, s.readPort 7]

/-! ### The source's algorithm -/

/-- One per-word step of the source (quoted in R64): "v3 ^= m; run the SipRound transform 2 times ...; then v0 ^= m". -/
def sourceWord (v : Vec4) (m : U64) : Vec4 :=
  let a := sipRound (sipRound ⟨v.v0, v.v1, v.v2, v.v3 ^^^ m⟩)
  ⟨a.v0 ^^^ m, a.v1, a.v2, a.v3⟩

/-- Four SipRounds (R83, R85). -/
def sourceFour (v : Vec4) : Vec4 := sipRound (sipRound (sipRound (sipRound v)))

/-- The source's `siphash(msg, key, outlen)` for a 16-byte key and outlen 8 or 16, step by step over byte strings:
initialize (R69, R70), compress each full word (R33), the length-tagged tail (R34, R82), finalize (R83, R84), and the
extended output (R85); the digest bytes are those of R35. -/
def siphash (msg key : List Byte) (outlen : Nat) : List Byte :=
  let k0 := le64At key 0
  let k1 := le64At key 8
  let v : Vec4 :=
    ⟨k0 ^^^ 0x736f6d6570736575#64, k1 ^^^ 0x646f72616e646f6d#64, k0 ^^^ 0x6c7967656e657261#64,
      k1 ^^^ 0x7465646279746573#64⟩
  let v := if outlen = 16 then { v with v1 := v.v1 ^^^ 0xee#64 } else v
  let v := (messageBlocks msg).foldl sourceWord v
  let b := BitVec.ofNat 64 (msg.length % 256 * 2 ^ 56) ||| tailWord msg
  let v := sourceWord v b
  let v := sourceFour { v with v2 := v.v2 ^^^ (if outlen = 16 then 0xee#64 else 0xff#64) }
  let first := le64Bytes (v.v0 ^^^ v.v1 ^^^ v.v2 ^^^ v.v3)
  let v := sourceFour { v with v1 := v.v1 ^^^ 0xdd#64 }
  if outlen = 16 then first ++ le64Bytes (v.v0 ^^^ v.v1 ^^^ v.v2 ^^^ v.v3) else first

end Sys2Proof.Machine
end

