-- ==== Sys2Proof/Certificates/Slice0/Obligations.lean ====
section
/-! DEFINITION. The statements for the provers. Every statement is about every state unless a hypothesis says
otherwise. A result written as a record update of `s` is a frame as well: every register, the command in flight and
the environment's fields that the update does not name are unchanged. There is no memory (R27). -/

open Sys2Proof Sys2Proof.Machine

/-! ### Encoding -/

/-- Decoding an encoded well-formed command gives it back, and a word that decodes is the encoding of what it decodes
to (R50, R51, R55). -/
def Obligations.DecodeAndEncodeAgree : Prop :=
  (∀ i : Instr, i.wellFormed = true → decode (encode i) = .ok i) ∧
  (∀ (c : Command) (i : Instr), decode c = .ok i → i.wellFormed = true ∧ (encode i).word = c.word)

/-- The opcode map as numbers: exactly these words decode to exactly these commands, DATA is the operand R49 names,
and no word matches two rows (R50). -/
def Obligations.DecodeReadsTheOpcodeMap : Prop :=
  (∀ (c : Command) (i : Instr), decode c = .ok i ↔
    match i with
    | .nop => c.word.toNat = 0
    | .ldk0 k => c.word.toNat = 1 ∧ k = c.data
    | .ldk1 k => c.word.toNat = 2 ∧ k = c.data
    | .init outlen => outlen < 256 ∧ c.word.toNat = 3 + outlen * 2 ^ 16
    | .absorb m => c.word.toNat = 4 ∧ m = c.data
    | .final nb tail => nb < 8 ∧ c.word.toNat = 5 + nb * 2 ^ 8 ∧ tail = c.data
    | .clrerr => c.word.toNat = 6
    | .clear => c.word.toNat = 7) ∧
  opRows.Pairwise (fun a b => ∀ w, ¬ (a.hits w = true ∧ b.hits w = true))

/-- The illegal words are the three kinds of R52, and such a word has an effect only on ERR (R52, R98). -/
def Obligations.IllegalWordsAreTheThreeKinds : Prop :=
  (∀ c : Command, (∃ k, decode c = .error k) ↔
    (let n := c.word.toNat
     let op := n % 256
     let nb := n / 2 ^ 8 % 8
     let rsv0 := n / 2 ^ 11 % 32
     let outlen := n / 2 ^ 16 % 256
     let rsv1 := n / 2 ^ 24
     8 ≤ op ∨ (op < 8 ∧ (rsv0 ≠ 0 ∨ rsv1 ≠ 0)) ∨
       (op < 8 ∧ ((nb ≠ 0 ∧ op ≠ 5) ∨ (outlen ≠ 0 ∧ op ≠ 3))))) ∧
  (∀ (c : Command) (k : IllegalKind) (s : State), decode c = .error k →
    execCommand c s = .next (s.recorded .illegalCommand))

/-- Sample words of 95_test_vectors.md L2-9, each written out from the command format (R44, R50). That DATA
stands in bits 95:32 is the model's own choice (log entry 9). -/
def Obligations.SampleWordsDecode : Prop :=
  decodeTableWord 32 0x00000000 = some .nop ∧
  decodeTableWord 32 0x00080003 = some (.init 8) ∧
  decodeTableWord 32 0x00040003 = some (.init 4) ∧
  decodeTableWord 32 0x00000705 = some (.final 7 0) ∧
  decodeTableWord 96 0x070605040302010000000001 = some (.ldk0 0x0706050403020100#64) ∧
  decodeTableWord 32 0x00000100 = none ∧
  decodeTableWord 32 0x00080005 = none ∧
  decodeTableWord 32 0x80000001 = none

/-! ### Datapath -/

/-- Bit i of rotl64(x, n) is bit (i - n) mod 64 of x, for n from 1 to 63; add64 wraps modulo 2^64 (R57). -/
def Obligations.RotationMovesEachBit : Prop :=
  (∀ (x : U64) (n i : Nat), 1 ≤ n → n ≤ 63 → i < 64 →
    (rotl64 x n).getLsbD i = x.getLsbD ((i + 64 - n) % 64)) ∧
  (∀ a b : U64, (add64 a b).toNat = (a.toNat + b.toNat) % 2 ^ 64)

/-- SipRound is a bijection on 4-tuples of u64 (R61). -/
def Obligations.SipRoundIsBijective : Prop := Function.Bijective sipRound

/-- The dataflow form of R60 equals the statements of R59 on every input. -/
def Obligations.SipRoundHasDataflowForm : Prop :=
  ∀ v : Vec4,
    sipRound v =
      (let t0 := v.v0 + v.v1
       let t1 := rotl64 v.v1 13 ^^^ t0
       let u0 := rotl64 t0 32
       let t2 := v.v2 + v.v3
       let t3 := rotl64 v.v3 16 ^^^ t2
       let w0 := u0 + t3
       let w3 := rotl64 t3 21 ^^^ w0
       let w2 := t2 + t1
       let w1 := rotl64 t1 17 ^^^ w2
       let z2 := rotl64 w2 32
       ⟨w0, w1, z2, w3⟩)

/-- Compressing a block loses nothing of the state: for each block, compress is a bijection (R61, R64); and m = 0 gives
rounds(2, v) (R64). -/
def Obligations.CompressIsBijective : Prop :=
  (∀ m : U64, Function.Bijective (fun v => compress v m)) ∧ (∀ v, compress v 0 = rounds 2 v)

/-- le64 and le64_bytes are inverse to each other (R10, R31). -/
def Obligations.LittleEndianRoundTrip : Prop :=
  (∀ b0 b1 b2 b3 b4 b5 b6 b7 : Byte, le64Bytes (le64 b0 b1 b2 b3 b4 b5 b6 b7) = [b0, b1, b2, b3, b4, b5, b6, b7]) ∧
  (∀ x : U64, le64 (byteOf x 0) (byteOf x 1) (byteOf x 2) (byteOf x 3) (byteOf x 4) (byteOf x 5) (byteOf x 6)
    (byteOf x 7) = x)

/-! ### The commands: encoding, completion, result and frame -/

/-- NOP: any DATA, any state; no state is written; it still takes a handshake and sets BUSY (R89). -/
def Obligations.NopLeavesEveryState : Prop :=
  (∀ d, decode ⟨0x00000000#32, d⟩ = .ok .nop) ∧
  (∀ s, exec .nop s = .next s) ∧
  (∀ s d, s.edge = .accept ⟨0x00000000#32, d⟩ → ∃ t, step s = .next t ∧ t.busy = true)

/-- LDK0 and LDK1: the key half and its KEYV bit, in every PHASE, and nothing else (R67, R68). -/
def Obligations.KeyHalvesLoad : Prop :=
  ∀ (s : State) (d : U64),
    decode ⟨0x00000001#32, d⟩ = .ok (.ldk0 d) ∧
    exec (.ldk0 d) s = .next { s with k0 := d, keyv := s.keyv.extractLsb' 1 1 ++ 1#1 } ∧
    decode ⟨0x00000002#32, d⟩ = .ok (.ldk1 d) ∧
    exec (.ldk1 d) s = .next { s with k1 := d, keyv := 1#1 ++ s.keyv.extractLsb' 0 1 }

/-- INIT: its encoding, the key check first, then the OUTLEN check, and on success every write of R70 from any PHASE
(R70, R71, R100, R101). -/
def Obligations.InitStartsMessage : Prop :=
  (∀ (outlen : Nat) (d : U64), outlen < 256 →
    decode ⟨BitVec.ofNat 32 (3 + outlen * 2 ^ 16), d⟩ = .ok (.init outlen)) ∧
  (∀ (s : State) (outlen : Nat), s.keyv ≠ 0b11#2 → exec (.init outlen) s = .next (s.recorded .invalidKeyLength)) ∧
  (∀ (s : State) (outlen : Nat), s.keyv = 0b11#2 → outlen ≠ 8 → outlen ≠ 16 →
    exec (.init outlen) s = .next (s.recorded .unsupportedOutputLength)) ∧
  (∀ s : State, s.keyv = 0b11#2 →
    exec (.init 8) s = .next { s with
      v3 := s.k1 ^^^ 0x7465646279746573#64, v2 := s.k0 ^^^ 0x6c7967656e657261#64
      v1 := s.k1 ^^^ 0x646f72616e646f6d#64, v0 := s.k0 ^^^ 0x736f6d6570736575#64
      mode := .bytes8, len := 0, h0 := 0, h1 := 0, phase := .absorb }) ∧
  (∀ s : State, s.keyv = 0b11#2 →
    exec (.init 16) s = .next { s with
      v3 := s.k1 ^^^ 0x7465646279746573#64, v2 := s.k0 ^^^ 0x6c7967656e657261#64
      v1 := s.k1 ^^^ 0x646f72616e646f6d#64 ^^^ 0xee#64, v0 := s.k0 ^^^ 0x736f6d6570736575#64
      mode := .bytes16, len := 0, h0 := 0, h1 := 0, phase := .absorb })

/-- ABSORB: in PHASE = ABSORB the block is compressed and LEN gains 8; otherwise SequenceError and nothing else (R75,
R99). -/
def Obligations.AbsorbCompressesBlock : Prop :=
  ∀ (s : State) (m : U64),
    decode ⟨0x00000004#32, m⟩ = .ok (.absorb m) ∧
    (s.phase = .absorb →
      exec (.absorb m) s = .next { s with
        v0 := (sipRound (sipRound ⟨s.v0, s.v1, s.v2, s.v3 ^^^ m⟩)).v0 ^^^ m
        v1 := (sipRound (sipRound ⟨s.v0, s.v1, s.v2, s.v3 ^^^ m⟩)).v1
        v2 := (sipRound (sipRound ⟨s.v0, s.v1, s.v2, s.v3 ^^^ m⟩)).v2
        v3 := (sipRound (sipRound ⟨s.v0, s.v1, s.v2, s.v3 ^^^ m⟩)).v3
        len := s.len + 8 }) ∧
    (s.phase ≠ .absorb → exec (.absorb m) s = .next (s.recorded .sequenceError))

/-- FINAL: in PHASE = ABSORB the tail block, given here as a number (the length tag in its top byte, the low NB bytes of
DATA below), is compressed and finalized, and every write of R79 happens; otherwise SequenceError and nothing else. -/
def Obligations.FinalProducesDigest : Prop :=
  ∀ (s : State) (nb : Nat) (d b : U64), nb < 8 →
    b.toNat = (s.len.toNat + nb) % 256 * 2 ^ 56 + d.toNat % 2 ^ (8 * nb) →
    decode ⟨BitVec.ofNat 32 (5 + nb * 2 ^ 8), d⟩ = .ok (.final nb d) ∧
    (s.phase = .absorb →
      let v := sourceWord ⟨s.v0, s.v1, s.v2, s.v3⟩ b
      let v := sourceFour { v with v2 := v.v2 ^^^ (if s.mode = .bytes16 then 0xee#64 else 0xff#64) }
      let w := sourceFour { v with v1 := v.v1 ^^^ 0xdd#64 }
      exec (.final nb d) s = .next { s with
        h0 := v.v0 ^^^ v.v1 ^^^ v.v2 ^^^ v.v3
        h1 := if s.mode = .bytes16 then w.v0 ^^^ w.v1 ^^^ w.v2 ^^^ w.v3 else s.h1
        len := s.len + BitVec.ofNat 64 nb
        v0 := 0, v1 := 0, v2 := 0, v3 := 0
        phase := .done }) ∧
    (s.phase ≠ .absorb → exec (.final nb d) s = .next (s.recorded .sequenceError))

/-- The tail block byte by byte: tail byte i for i < NB, zeros from NB to 6, the length tag in bits 63:56 (R82). -/
def Obligations.TailBlockBytes : Prop :=
  ∀ (total d : U64) (nb : Nat), nb < 8 →
    (∀ i, i < nb → byteOf (tailBlock total nb d) i = byteOf d i) ∧
    (∀ i, nb ≤ i → i < 7 → byteOf (tailBlock total nb d) i = 0) ∧
    byteOf (tailBlock total nb d) 7 = byteOf total 0

/-- The DATA bytes at offsets NB to 7 never affect the result of FINAL (R79, R80). -/
def Obligations.FinalIgnoresDataAboveTail : Prop :=
  ∀ (s : State) (nb : Nat) (d d' : U64), nb < 8 → (∀ i, i < nb → byteOf d i = byteOf d' i) →
    exec (.final nb d) s = exec (.final nb d') s

/-- CLRERR: any DATA, in every PHASE; ERR becomes 0 and nothing else changes (R90). -/
def Obligations.ClrerrClearsOnlyErr : Prop :=
  (∀ d, decode ⟨0x00000006#32, d⟩ = .ok .clrerr) ∧
  (∀ s, exec .clrerr s = .next { s with err := none }) ∧
  (∀ s, s.err = none → exec .clrerr s = .next s)

/-- CLEAR: any DATA, in every PHASE; every element of R11 but BUSY takes its reset value, so STATUS reads 0; INIT then
raises InvalidKeyLength until both key halves are loaded again, and no other command removes a loaded key (R91). -/
def Obligations.ClearZeroizes : Prop :=
  (∀ d, decode ⟨0x00000007#32, d⟩ = .ok .clear) ∧
  (∀ s : State, exec .clear s = .next { State.reset with
    inflight := s.inflight, host := s.host, cmdIndex := s.cmdIndex, time := s.time }) ∧
  (∀ s t : State, s.busy = false → exec .clear s = .next t → t.status = 0) ∧
  (∀ (s t : State) (outlen : Nat), exec .clear s = .next t →
    exec (.init outlen) t = .next { t with err := some .invalidKeyLength }) ∧
  (∀ (i : Instr) (s t : State) (b : Nat), i ≠ .clear → exec i s = .next t →
    s.keyv.getLsbD b = true → t.keyv.getLsbD b = true)

/-- No command writes the command in flight, the host's script, its index or the draw index: BUSY follows the handshake
(R20, R91), not the commands. -/
def Obligations.CommandsWriteOnlyTheBlock : Prop :=
  ∀ (i : Instr) (s : State), ∃ t, exec i s = .next t ∧
    t.inflight = s.inflight ∧ t.host = s.host ∧ t.cmdIndex = s.cmdIndex ∧ t.time = s.time

/-- Only INIT reads the key, only LDK0, LDK1 and CLEAR write it, and loading a key never changes V0..V3 (R72). -/
def Obligations.OnlyInitReadsTheKey : Prop :=
  (∀ (i : Instr) (s : State) (a b : U64), (∀ outlen, i ≠ .init outlen) →
    ∃ t t', exec i s = .next t ∧ exec i { s with k0 := a, k1 := b } = .next t' ∧
      t' = { t with k0 := t'.k0, k1 := t'.k1 }) ∧
  (∀ (i : Instr) (s t : State), (∀ k, i ≠ .ldk0 k) → (∀ k, i ≠ .ldk1 k) → i ≠ .clear → exec i s = .next t →
    t.k0 = s.k0 ∧ t.k1 = s.k1) ∧
  (∀ (k : U64) (s t : State), exec (.ldk0 k) s = .next t ∨ exec (.ldk1 k) s = .next t →
    t.v0 = s.v0 ∧ t.v1 = s.v1 ∧ t.v2 = s.v2 ∧ t.v3 = s.v3)

/-- The legality of each command by PHASE, and the next PHASE (R95): SequenceError is raised by ABSORB and FINAL outside
PHASE = ABSORB and by nothing else, and an illegal word raises IllegalCommand in every PHASE. -/
def Obligations.LegalityByPhase : Prop :=
  (∀ (i : Instr) (s : State), ∃ t, exec i s = .next t ∧
    t.phase = (match i with
      | .init outlen => if s.keyv = 0b11#2 ∧ (outlen = 8 ∨ outlen = 16) then .absorb else s.phase
      | .absorb _ => s.phase
      | .final _ _ => if s.phase = .absorb then .done else s.phase
      | .clear => .idle
      | .nop => s.phase
      | .ldk0 _ => s.phase
      | .ldk1 _ => s.phase
      | .clrerr => s.phase) ∧
    (s.err = none →
      (t.err = some .sequenceError ↔
        s.phase ≠ .absorb ∧ ((∃ m, i = .absorb m) ∨ ∃ nb d, i = .final nb d)))) ∧
  (∀ (c : Command) (s : State), illegalWord c.word = true → execCommand c s = .next (s.recorded .illegalCommand))

/-! ### Errors -/

/-- A command raises at most one error, the first in the order of R103, and then nothing changes but ERR, which keeps a
code it already held; a command that raises none leaves ERR alone, but for CLRERR and CLEAR (R97, R103). -/
def Obligations.ErrorsFollowPriority : Prop :=
  ∀ (c : Command) (s : State),
    match errorOf c s with
    | some e => execCommand c s = .next (s.recorded e)
    | none => ∃ i t, decode c = .ok i ∧ execCommand c s = .next t ∧
        t.err = if i = .clrerr ∨ i = .clear then none else s.err

/-- ERR is cleared only by CLRERR, by CLEAR and by reset, and each of the three clears it; while ERR holds a code,
nothing overwrites it; and while it holds none, a step records exactly the error of the command it completes, so ERR
shows the first error since it was last cleared (R19, R106). -/
def Obligations.ErrIsSticky : Prop :=
  (∀ (s t : State) (e : ErrorCause), step s = .next t → s.err = some e →
    t.err = some e ∨
    (t.err = none ∧ (s.edge = .reset ∨
      ∃ c, s.edge = .complete c ∧ (decode c = .ok .clrerr ∨ decode c = .ok .clear)))) ∧
  (∀ s : State, s.edge = .reset → ∃ t, step s = .next t ∧ t.err = none) ∧
  (∀ (s : State) (c : Command), s.edge = .complete c → decode c = .ok .clrerr ∨ decode c = .ok .clear →
    ∃ t, step s = .next t ∧ t.err = none) ∧
  (∀ (s t : State) (e : ErrorCause), step s = .next t → s.err = none →
    (t.err = some e ↔ ∃ c, s.edge = .complete c ∧ errorOf c s = some e))

/-- Commands keep running while ERR is nonzero: what ERR holds changes no command's effect on anything else (R105). -/
def Obligations.ErrGatesNoCommand : Prop :=
  ∀ (c : Command) (s : State) (e : Option ErrorCause),
    ∃ t t', execCommand c s = .next t ∧ execCommand c { s with err := e } = .next t' ∧ t' = { t with err := t'.err }

/-! ### Whole messages -/

/-- Between INIT and FINAL, with only ABSORBs and commands that do not touch V0..V3 or LEN, the state is the blocks
compressed in order, and LEN gains 8 for each (R76). Here from any state with a message in progress and the key
loaded; right after a successful INIT, LEN is 0. -/
def Obligations.AbsorbedBlocksFold : Prop :=
  ∀ (cs : List Command) (s : State), s.phase = .absorb → s.keyv = 0b11#2 →
    (∀ c ∈ cs, sparesMessage c = true ∨ (absorbedBlock c).isSome = true) →
    ∃ t, runCommands cs s = .next t ∧ t.phase = .absorb ∧ t.keyv = 0b11#2 ∧ t.mode = s.mode ∧
      t.vec = (cs.filterMap absorbedBlock).foldl sourceWord s.vec ∧
      t.len = s.len + BitVec.ofNat 64 (8 * (cs.filterMap absorbedBlock).length)

/-- The whole-message law (R88): from any state, the key load, INIT, the ABSORBs of the message's full blocks and one
FINAL with its tail (any DATA above it) all succeed, and the digest is the source's siphash, byte for byte; and the
same without the key load when that key is already loaded. -/
def Obligations.WholeMessageLaw : Prop :=
  ∀ (s : State) (key msg : List Byte) (outlen : Nat) (d : U64), key.length = 16 → outlen = 8 ∨ outlen = 16 →
    d &&& tailMask (tailLength msg) = tailWord msg →
    let body : List Instr := .init outlen :: (messageBlocks msg).map .absorb ++ [.final (tailLength msg) d]
    (∃ t, runCommands ((keyCommands key ++ body).map encode) s = .next t ∧
      t.digest = siphash msg key outlen ∧ t.phase = .done ∧ t.err = s.err ∧
      t.len = BitVec.ofNat 64 msg.length) ∧
    (s.keyv = 0b11#2 → s.k0 = le64At key 0 → s.k1 = le64At key 8 →
      ∃ t, runCommands (body.map encode) s = .next t ∧
        t.digest = siphash msg key outlen ∧ t.phase = .done ∧ t.err = s.err ∧
        t.len = BitVec.ofNat 64 msg.length)

/-- A host that presents any blocks and any tail gets the SipHash of the bytes it did present, under the key the block
holds, and LEN is their number (R37, R81, R88). -/
def Obligations.PresentedBytesAreHashed : Prop :=
  ∀ (s : State) (blocks : List U64) (nb outlen : Nat) (d : U64), s.keyv = 0b11#2 → outlen = 8 ∨ outlen = 16 → nb < 8 →
    ∃ t, runCommands ((Instr.init outlen :: blocks.map Instr.absorb ++ [Instr.final nb d]).map encode) s = .next t ∧
      t.digest =
        siphash (blocks.flatMap le64Bytes ++ (le64Bytes d).take nb) (le64Bytes s.k0 ++ le64Bytes s.k1) outlen ∧
      t.phase = .done ∧ t.len = BitVec.ofNat 64 (8 * blocks.length + nb)

/-! ### The read port -/

/-- STATUS, at read address 0, field by field; a step changes a nonzero ERR field only by reset, CLRERR or CLEAR; and STATUS reads 0 after
reset (R21). -/
def Obligations.StatusLayout : Prop :=
  (∀ s : State,
    s.readPort 0 = s.status ∧
    s.status.extractLsb' 0 1 = (if s.busy then 1#1 else 0#1) ∧
    s.status.extractLsb' 1 2 = (match s.phase with | .idle => 0b00#2 | .absorb => 0b01#2 | .done => 0b10#2) ∧
    s.status.extractLsb' 3 1 = (match s.mode with | .bytes8 => 0#1 | .bytes16 => 1#1) ∧
    s.status.extractLsb' 4 2 = s.keyv ∧
    s.status.extractLsb' 6 2 = 0 ∧
    s.status.extractLsb' 8 3 =
      (match s.err with
        | none => 0#3
        | some .illegalCommand => 1#3
        | some .sequenceError => 2#3
        | some .invalidKeyLength => 3#3
        | some .unsupportedOutputLength => 4#3) ∧
    s.status.extractLsb' 11 53 = 0) ∧
  (∀ s t : State, step s = .next t → s.status.extractLsb' 8 3 ≠ 0 →
    t.status.extractLsb' 8 3 = s.status.extractLsb' 8 3 ∨
    (t.status.extractLsb' 8 3 = 0 ∧ (s.edge = .reset ∨
      ∃ c, s.edge = .complete c ∧ (decode c = .ok .clrerr ∨ decode c = .ok .clear)))) ∧
  State.reset.status = 0

/-- The read map (R29): STATUS is always exact, addresses 4 to 7 always read 0, LEN, H0 and H1 are exact with BUSY = 0
and the draw busy_read with BUSY = 1 (R119), and V0..V3, K0 and K1 have no read address. -/
def Obligations.ReadPortFollowsMap : Prop :=
  (∀ s : State, s.readPort 0 = s.status ∧
    (∀ a : BitVec 3, 4 ≤ a.toNat → s.readPort a = 0) ∧
    (s.busy = false → s.readPort 1 = s.len ∧ s.readPort 2 = s.h0 ∧ s.readPort 3 = s.h1) ∧
    (s.busy = true → ∀ a : BitVec 3, 1 ≤ a.toNat → a.toNat ≤ 3 → s.readPort a = Config.busyRead a s.time)) ∧
  (∀ (s t : State) (a : BitVec 3), s.sameButSecrets t → t.readPort a = s.readPort a)

/-- A read has no side effect: in any cycle rd_data is the register at rd_addr (R28, R92), the address read changes
nothing in the next state, and with BUSY = 0 a cycle that accepts nothing and is no reset leaves every read the same
(R30). -/
def Obligations.ReadsHaveNoSideEffect : Prop :=
  (∀ (s : State) (p : Pins) (rest : List HostAct) (a : BitVec 3),
    ({ s with host := .cycle { p with rdAddr := a } :: rest } : State).rdData = s.readPort a ∧
    step { s with host := .cycle { p with rdAddr := a } :: rest } = step { s with host := .cycle p :: rest }) ∧
  (∀ s : State, s.edge = .idle → ∃ t, step s = .next t ∧ ∀ a, t.readPort a = s.readPort a)

/-- Until a FINAL completes, what the block shows does not depend on V0..V3 or the key: two states that differ only in
them read alike and step to states that differ only in them (R12, R13, R29). -/
def Obligations.OnlyFinalRevealsSecrets : Prop :=
  ∀ s t : State, s.sameButSecrets t →
    (∀ a, t.readPort a = s.readPort a) ∧ t.cmdReady = s.cmdReady ∧
    ((∀ c nb d, s.edge = .complete c → decode c ≠ .ok (.final nb d)) →
      ∃ s' t', step s = .next s' ∧ step t = .next t' ∧ s'.sameButSecrets t')

/-! ### The edges of clk -/

/-- A step runs the decoded command: at the edge that completes a command whose word decodes to `i`, the step is `exec i`
on the state with BUSY = 0 and the environment moved on; an illegal word records IllegalCommand there (R98, R118).
That the step is an edge, and where withFetchWord places a command, is the model's own choice (log entries 1, 8 and 9). -/
def Obligations.StepRunsTheDecodedCommand : Prop :=
  (∀ (s : State) (c : Command) (i : Instr), s.edge = .complete c → decode c = .ok i →
    step s = exec i { s with inflight := none, host := s.hostNext, time := s.time + 1 }) ∧
  (∀ (s : State) (c : Command) (k : IllegalKind), s.edge = .complete c → decode c = .error k →
    step s = .next ({ s with inflight := none, host := s.hostNext, time := s.time + 1 }.recorded .illegalCommand)) ∧
  (∀ (s : State) (nbits w : Nat) (i : Instr), decodeTableWord nbits w = some i →
    step (s.withFetchWord nbits w) = exec i { s with inflight := none, time := s.time + 1 })

/-- Reset (R112, R113): an edge that samples rst_n = 0 accepts no command, abandons the one in flight, and gives every
element of R11 its reset value; STATUS then reads 0. -/
def Obligations.ResetEdgeResetsEverything : Prop :=
  ∀ s : State, s.pins.rstN = false →
    s.cmdReady = false ∧
    step s = .next { State.reset with host := s.host.tail, cmdIndex := s.cmdIndex, time := s.time + 1 } ∧
    ∀ t, step s = .next t → t.status = 0

/-- cmd_ready is NOT BUSY while rst_n = 1 and 0 while rst_n = 0 (R116). -/
def Obligations.ReadyIsNotBusy : Prop :=
  ∀ s : State, (s.pins.rstN = true → s.cmdReady = !s.busy) ∧ (s.pins.rstN = false → s.cmdReady = false)

/-- Acceptance (R117): where rst_n, cmd_valid and cmd_ready are all 1, and only there, the host's index moves on; the
edge samples the word and the DATA together, BUSY becomes 1, and the rest of the block is unchanged. A command not
presented at such an edge has not been sent. -/
def Obligations.AcceptanceNeedsValidAndReady : Prop :=
  (∀ s : State, s.pins.rstN = true → s.pins.cmdValid = true → s.cmdReady = true →
    ∃ t left, step s = .next t ∧ 1 ≤ left ∧ t.busy = true ∧
      t = { s with
        inflight := some ⟨⟨s.pins.cmdWord, s.pins.cmdData⟩, left⟩
        host := s.hostNext, cmdIndex := s.cmdIndex + 1, time := s.time + 1 }) ∧
  (∀ s t : State, step s = .next t →
    ¬ (s.pins.rstN = true ∧ s.pins.cmdValid = true ∧ s.cmdReady = true) → t.cmdIndex = s.cmdIndex)

/-- Between commands nothing happens: an edge that is neither a reset nor a completion leaves every register of the
block as it was (R24, R40). -/
def Obligations.NothingHappensBetweenCommands : Prop :=
  ∀ s t : State, step s = .next t → s.edge ≠ .reset → (∀ c, s.edge ≠ .complete c) →
    s.sameBlock { t with inflight := s.inflight }

/-- From the accepting edge, with no reset, BUSY stays 1 for latency(op) cycles, at least one, during which no command is
accepted and no register changes; then all of the command's effects appear at once, exactly those of its rule, and
BUSY is 0 (R118, R122). Stated for whatever latency the draw gives. The host's script, the draw indexed by the edge and
the host's index are the model's own forms (log entries 2, 3 and 17). -/
def Obligations.CommandsAreAtomicAndComplete : Prop :=
  ∀ (s : State) (c : Command), s.edge = .accept c → (∀ a ∈ s.host, a.pins.rstN = true) →
    let latency := Config.latency (c.word.extractLsb' 0 8) s.time
    1 ≤ latency ∧
    (∀ k, 1 ≤ k → k ≤ latency → ∃ t, Host.Core.run Sys2Proof.core k s = .next t ∧
      t.busy = true ∧ t.cmdReady = false ∧ t.cmdIndex = s.cmdIndex + 1 ∧
      s.sameBlock { t with inflight := none }) ∧
    ∃ u : State, Host.Core.run Sys2Proof.core (latency + 1) s = .next u ∧
      u.busy = false ∧ u.cmdIndex = s.cmdIndex + 1 ∧
      execCommand c s = .next { u with host := s.host, cmdIndex := s.cmdIndex, time := s.time }

/-- Commands take effect one at a time in the order presented; none is lost, repeated or reordered, whatever the
latencies: a host that presents a list of commands to an idle block reaches the state of running them in order (R40,
R117). The host's script, its entries and the end of the run as the end of the script are the model's own choice (log
entries 2, 16 and 23), and the host's index is R22's optional pc (log entry 17). -/
def Obligations.CommandsRunInOrder : Prop :=
  ∀ (cs : List Command) (s : State), s.inflight = none → s.host = cs.map .send →
    ∃ (n : Nat) (u : State), Host.Core.run Sys2Proof.core n s = .next u ∧ u.runEnded = true ∧
      u.cmdIndex = s.cmdIndex + cs.length ∧
      runCommands cs s = .next { u with host := s.host, cmdIndex := s.cmdIndex, time := s.time }

/-- The assembled program LDKEY; HASH; WAIT, presented to any block that is not busy, ends with a valid digest that is
the source's siphash (R56, R87, R88, R115). The host's script, its entries and the end of the run as the end of the script
are the model's own choice (log entries 2, 16 and 23). -/
def Obligations.AssembledProgramHashes : Prop :=
  ∀ (s : State) (key msg : List Byte) (outlen : Nat), s.inflight = none → key.length = 16 → outlen = 8 ∨ outlen = 16 →
    ∃ script, assemble [.ldkey key, .hash outlen msg, .wait] = some script ∧
      ∃ (n : Nat) (u : State), Host.Core.run Sys2Proof.core n { s with host := script } = .next u ∧
        u.runEnded = true ∧ u.digestValid = true ∧ u.digest = siphash msg key outlen ∧ u.err = s.err

/-- At the end of a run nothing more happens: every later step is at the end of the run too, with the same observation
(R30, R124). The host's script, and the end of the run as the end of the script, are the model's own choice (log entries
2, 16 and 23). -/
def Obligations.EndedRunStaysEnded : Prop :=
  ∀ s : State, s.runEnded = true → ∃ t, step s = .next t ∧ t.runEnded = true ∧ t.observation = s.observation

/-! ### Whole-machine rules -/

/-- The block never stops: every step of every state and every command answers a next state (R66, R105, R122). -/
def Obligations.EveryStepContinues : Prop :=
  (∀ s : State, ∃ t, step s = .next t) ∧ (∀ (c : Command) (s : State), ∃ t, execCommand c s = .next t)

/-- PHASE changes by reset, CLEAR, a successful INIT and a successful FINAL only, and as R16 says. -/
def Obligations.PhaseChangesOnlyAsListed : Prop :=
  ∀ s t : State, step s = .next t →
    t.phase = (match s.edge with
      | .reset => .idle
      | .complete c =>
        (match decode c with
          | .ok .clear => .idle
          | .ok (.init outlen) => if s.keyv = 0b11#2 ∧ (outlen = 8 ∨ outlen = 16) then .absorb else s.phase
          | .ok (.final _ _) => if s.phase = .absorb then .done else s.phase
          | _ => s.phase)
      | _ => s.phase)

/-- LEN is 0 after reset, CLEAR and a successful INIT, gains 8 by a successful ABSORB and NB by a successful FINAL, modulo
2^64, and does not change otherwise (R11, R17). -/
def Obligations.LenCountsMessageBytes : Prop :=
  ∀ s t : State, step s = .next t →
    t.len = (match s.edge with
      | .reset => 0
      | .complete c =>
        (match decode c with
          | .ok .clear => 0
          | .ok (.init outlen) => if s.keyv = 0b11#2 ∧ (outlen = 8 ∨ outlen = 16) then 0 else s.len
          | .ok (.absorb _) => if s.phase = .absorb then s.len + 8 else s.len
          | .ok (.final nb _) => if s.phase = .absorb then s.len + BitVec.ofNat 64 nb else s.len
          | _ => s.len)
      | _ => s.len)

/-- K0, K1 and their KEYV bits change by LDK0, LDK1, CLEAR and reset only (R13, R14). -/
def Obligations.KeyChangesOnlyAsListed : Prop :=
  ∀ s t : State, step s = .next t →
    match s.edge with
    | .reset => t.k0 = 0 ∧ t.k1 = 0 ∧ t.keyv = 0
    | .complete c =>
      (match decode c with
        | .ok .clear => t.k0 = 0 ∧ t.k1 = 0 ∧ t.keyv = 0
        | .ok (.ldk0 k) => t.k0 = k ∧ t.k1 = s.k1 ∧ t.keyv.getLsbD 0 = true ∧ t.keyv.getLsbD 1 = s.keyv.getLsbD 1
        | .ok (.ldk1 k) => t.k0 = s.k0 ∧ t.k1 = k ∧ t.keyv.getLsbD 0 = s.keyv.getLsbD 0 ∧ t.keyv.getLsbD 1 = true
        | _ => t.k0 = s.k0 ∧ t.k1 = s.k1 ∧ t.keyv = s.keyv)
    | _ => t.k0 = s.k0 ∧ t.k1 = s.k1 ∧ t.keyv = s.keyv

/-- A finished digest stands: in PHASE = DONE, only reset, CLEAR and a successful INIT change H0, H1, LEN or MODE, or
leave PHASE = DONE (R87). -/
def Obligations.DigestStandsUntilNextMessage : Prop :=
  ∀ s t : State, step s = .next t → s.phase = .done → s.edge ≠ .reset →
    (∀ c, s.edge = .complete c → decode c ≠ .ok .clear ∧
      (s.keyv = 0b11#2 → decode c ≠ .ok (.init 8) ∧ decode c ≠ .ok (.init 16))) →
    t.h0 = s.h0 ∧ t.h1 = s.h1 ∧ t.len = s.len ∧ t.mode = s.mode ∧ t.phase = .done

/-- The invariant of the block holds right after reset (R11, R16, R112). -/
def Obligations.ResetMeetsInvariant : Prop := State.reset.Inv

/-- Every step keeps the invariant of the block, from every state that meets it: V0..V3 are 0 outside a message, H0 and
H1 read 0 outside DONE, H1 is 0 in MODE 0, a message has its key, an unloaded key half is 0, LEN counts whole blocks,
and a command in flight has a cycle left (R11, R14, R16 to R18, R86, R87, R118). -/
def Obligations.StepKeepsInvariant : Prop :=
  ∀ s t : State, s.Inv → step s = .next t → t.Inv
end

