-- ==== Sys2Proof/Laws/Decode.lean ====
section
/-! SUPPORT. The decoder said once in numbers, so that proofs about it are linear arithmetic, and the encoder's two
fields. -/

namespace Sys2Proof

/-- A mask that keeps the low `lo` bits and the high `hi` bits of a word, as arithmetic. -/
theorem land_keep_ends (n lo mid hi : Nat) (h : n < 2 ^ (lo + mid + hi)) :
    n &&& ((2 ^ hi - 1) * 2 ^ (lo + mid) + (2 ^ lo - 1)) = n / 2 ^ (lo + mid) * 2 ^ (lo + mid) + n % 2 ^ lo := by
  have hpow := Nat.pow_le_pow_right (n := 2) (by omega) (show lo ≤ lo + mid by omega)
  have hpos := Nat.two_pow_pos lo
  have hlo : 2 ^ lo - 1 < 2 ^ (lo + mid) := by omega
  have hmod : n % 2 ^ lo < 2 ^ (lo + mid) := by
    have := Nat.mod_lt n hpos
    omega
  apply Nat.eq_of_testBit_eq
  intro i
  rw [Nat.testBit_and, Nat.mul_comm, Nat.testBit_two_pow_mul_add _ hlo, Nat.mul_comm,
    Nat.testBit_two_pow_mul_add _ hmod]
  by_cases hi' : i < lo + mid
  · simp only [hi', if_true, Nat.testBit_two_pow_sub_one, Nat.testBit_mod_two_pow]
    rw [Bool.and_comm]
  · simp only [hi', if_false, Nat.testBit_two_pow_sub_one, Nat.testBit_div_two_pow]
    rw [show i - (lo + mid) + (lo + mid) = i by omega]
    by_cases hh : i - (lo + mid) < hi
    · simp [hh]
    · simp only [hh, decide_false, Bool.and_false, Bool.false_eq]
      exact Nat.testBit_lt_two_pow (Nat.lt_of_lt_of_le h (Nat.pow_le_pow_right (by omega) (by omega)))

/-- The mask of the six rows without fields (R50) pins the whole word. -/
theorem fullMask_iff (w p : CmdWord) : (w &&& 0xFFFFFFFF#32) = p ↔ w.toNat = p.toNat := by
  rw [show (0xFFFFFFFF#32) = BitVec.allOnes 32 from rfl, BitVec.and_allOnes]
  exact BitVec.toNat_inj.symm

/-- INIT's row (R50) leaves OUTLEN free and pins the rest. -/
theorem initMask_iff (w : CmdWord) :
    (w &&& 0xFF00FFFF#32) = 3#32 ↔ w.toNat % 2 ^ 16 = 3 ∧ w.toNat / 2 ^ 24 = 0 := by
  rw [← BitVec.toNat_inj, BitVec.toNat_and]
  have := land_keep_ends w.toNat 16 8 8 w.isLt
  norm_num at this ⊢
  rw [this]; omega

/-- FINAL's row (R50) leaves NB free and pins the rest. -/
theorem finalMask_iff (w : CmdWord) :
    (w &&& 0xFFFFF8FF#32) = 5#32 ↔ w.toNat % 2 ^ 8 = 5 ∧ w.toNat / 2 ^ 11 = 0 := by
  rw [← BitVec.toNat_inj, BitVec.toNat_and]
  have := land_keep_ends w.toNat 8 3 21 w.isLt
  norm_num at this ⊢
  rw [this]; omega

/-- The decoder, row by row, on the word as a number. -/
theorem decode_eq (c : Command) :
    decode c =
      if c.word.toNat = 0 then .ok .nop
      else if c.word.toNat = 1 then .ok (.ldk0 c.data)
      else if c.word.toNat = 2 then .ok (.ldk1 c.data)
      else if c.word.toNat % 2 ^ 16 = 3 ∧ c.word.toNat / 2 ^ 24 = 0 then .ok (.init (c.word.toNat / 2 ^ 16 % 256))
      else if c.word.toNat = 4 then .ok (.absorb c.data)
      else if c.word.toNat % 2 ^ 8 = 5 ∧ c.word.toNat / 2 ^ 11 = 0 then
        .ok (.final (c.word.toNat / 2 ^ 8 % 8) c.data)
      else if c.word.toNat = 6 then .ok .clrerr
      else if c.word.toNat = 7 then .ok .clear
      else .error (illegalKind c.word) := by
  unfold decode
  simp only [opRows, List.find?_cons, List.find?_nil, OpRow.hits]
  simp only [Bool.beq_eq_decide_eq, fullMask_iff, initMask_iff, finalMask_iff, BitVec.toNat_ofNat, Nat.reduceMod,
    Nat.reducePow, Nat.zero_mod]
  split_ifs <;>
    simp_all only [decide_true, decide_false, nbField, outlenField, BitVec.extractLsb'_toNat,
      Nat.shiftRight_eq_div_pow, Nat.reducePow, and_self]

/-- INIT's word as a number (R55). -/
theorem encode_init_toNat {n : Nat} (h : n < 256) : (encode (.init n)).word.toNat = 3 + n * 2 ^ 16 := by
  have := Nat.two_pow_add_eq_or_of_lt (i := 16) (b := 3) (by decide) n
  simp only [encode, BitVec.toNat_or, BitVec.toNat_shiftLeft, BitVec.toNat_ofNat, Nat.shiftLeft_eq]
  rw [Nat.or_comm, show n % 2 ^ 32 * 2 ^ 16 % 2 ^ 32 = 2 ^ 16 * n by omega]
  norm_num at this ⊢
  rw [← this]; omega

/-- FINAL's word as a number (R55). -/
theorem encode_final_toNat {n : Nat} (d : U64) (h : n < 8) : (encode (.final n d)).word.toNat = 5 + n * 2 ^ 8 := by
  have := Nat.two_pow_add_eq_or_of_lt (i := 8) (b := 5) (by decide) n
  simp only [encode, BitVec.toNat_or, BitVec.toNat_shiftLeft, BitVec.toNat_ofNat, Nat.shiftLeft_eq]
  rw [Nat.or_comm, show n % 2 ^ 32 * 2 ^ 8 % 2 ^ 32 = 2 ^ 8 * n by omega]
  norm_num at this ⊢
  rw [← this]; omega

end Sys2Proof
end

