-- ==== Sys2Proof/Laws/State.lean ====
section
/-! SUPPORT. One lemma per field per update of the state, so that no later proof unfolds a record update. -/

namespace Sys2Proof.Machine

/-! ### setVec: V0..V3 from a tuple -/

@[simp] theorem setVec_v0 (v : Vec4) (s : State) : (s.setVec v).v0 = v.v0 := rfl
@[simp] theorem setVec_v1 (v : Vec4) (s : State) : (s.setVec v).v1 = v.v1 := rfl
@[simp] theorem setVec_v2 (v : Vec4) (s : State) : (s.setVec v).v2 = v.v2 := rfl
@[simp] theorem setVec_v3 (v : Vec4) (s : State) : (s.setVec v).v3 = v.v3 := rfl
@[simp] theorem setVec_k0 (v : Vec4) (s : State) : (s.setVec v).k0 = s.k0 := rfl
@[simp] theorem setVec_k1 (v : Vec4) (s : State) : (s.setVec v).k1 = s.k1 := rfl
@[simp] theorem setVec_keyv (v : Vec4) (s : State) : (s.setVec v).keyv = s.keyv := rfl
@[simp] theorem setVec_mode (v : Vec4) (s : State) : (s.setVec v).mode = s.mode := rfl
@[simp] theorem setVec_phase (v : Vec4) (s : State) : (s.setVec v).phase = s.phase := rfl
@[simp] theorem setVec_len (v : Vec4) (s : State) : (s.setVec v).len = s.len := rfl
@[simp] theorem setVec_h0 (v : Vec4) (s : State) : (s.setVec v).h0 = s.h0 := rfl
@[simp] theorem setVec_h1 (v : Vec4) (s : State) : (s.setVec v).h1 = s.h1 := rfl
@[simp] theorem setVec_err (v : Vec4) (s : State) : (s.setVec v).err = s.err := rfl
@[simp] theorem setVec_inflight (v : Vec4) (s : State) : (s.setVec v).inflight = s.inflight := rfl
@[simp] theorem setVec_host (v : Vec4) (s : State) : (s.setVec v).host = s.host := rfl
@[simp] theorem setVec_cmdIndex (v : Vec4) (s : State) : (s.setVec v).cmdIndex = s.cmdIndex := rfl
@[simp] theorem setVec_time (v : Vec4) (s : State) : (s.setVec v).time = s.time := rfl

/-! ### clearErr: CLRERR's update -/

@[simp] theorem clearErr_v0 (s : State) : (s.clearErr).v0 = s.v0 := rfl
@[simp] theorem clearErr_v1 (s : State) : (s.clearErr).v1 = s.v1 := rfl
@[simp] theorem clearErr_v2 (s : State) : (s.clearErr).v2 = s.v2 := rfl
@[simp] theorem clearErr_v3 (s : State) : (s.clearErr).v3 = s.v3 := rfl
@[simp] theorem clearErr_k0 (s : State) : (s.clearErr).k0 = s.k0 := rfl
@[simp] theorem clearErr_k1 (s : State) : (s.clearErr).k1 = s.k1 := rfl
@[simp] theorem clearErr_keyv (s : State) : (s.clearErr).keyv = s.keyv := rfl
@[simp] theorem clearErr_mode (s : State) : (s.clearErr).mode = s.mode := rfl
@[simp] theorem clearErr_phase (s : State) : (s.clearErr).phase = s.phase := rfl
@[simp] theorem clearErr_len (s : State) : (s.clearErr).len = s.len := rfl
@[simp] theorem clearErr_h0 (s : State) : (s.clearErr).h0 = s.h0 := rfl
@[simp] theorem clearErr_h1 (s : State) : (s.clearErr).h1 = s.h1 := rfl
@[simp] theorem clearErr_err (s : State) : (s.clearErr).err = none := rfl
@[simp] theorem clearErr_inflight (s : State) : (s.clearErr).inflight = s.inflight := rfl
@[simp] theorem clearErr_host (s : State) : (s.clearErr).host = s.host := rfl
@[simp] theorem clearErr_cmdIndex (s : State) : (s.clearErr).cmdIndex = s.cmdIndex := rfl
@[simp] theorem clearErr_time (s : State) : (s.clearErr).time = s.time := rfl

/-! ### zeroize: CLEAR's update -/

@[simp] theorem zeroize_v0 (s : State) : (s.zeroize).v0 = 0 := rfl
@[simp] theorem zeroize_v1 (s : State) : (s.zeroize).v1 = 0 := rfl
@[simp] theorem zeroize_v2 (s : State) : (s.zeroize).v2 = 0 := rfl
@[simp] theorem zeroize_v3 (s : State) : (s.zeroize).v3 = 0 := rfl
@[simp] theorem zeroize_k0 (s : State) : (s.zeroize).k0 = 0 := rfl
@[simp] theorem zeroize_k1 (s : State) : (s.zeroize).k1 = 0 := rfl
@[simp] theorem zeroize_keyv (s : State) : (s.zeroize).keyv = 0b00#2 := rfl
@[simp] theorem zeroize_mode (s : State) : (s.zeroize).mode = .bytes8 := rfl
@[simp] theorem zeroize_phase (s : State) : (s.zeroize).phase = .idle := rfl
@[simp] theorem zeroize_len (s : State) : (s.zeroize).len = 0 := rfl
@[simp] theorem zeroize_h0 (s : State) : (s.zeroize).h0 = 0 := rfl
@[simp] theorem zeroize_h1 (s : State) : (s.zeroize).h1 = 0 := rfl
@[simp] theorem zeroize_err (s : State) : (s.zeroize).err = none := rfl
@[simp] theorem zeroize_inflight (s : State) : (s.zeroize).inflight = s.inflight := rfl
@[simp] theorem zeroize_host (s : State) : (s.zeroize).host = s.host := rfl
@[simp] theorem zeroize_cmdIndex (s : State) : (s.zeroize).cmdIndex = s.cmdIndex := rfl
@[simp] theorem zeroize_time (s : State) : (s.zeroize).time = s.time := rfl

/-! ### resetBlock: the reset edge -/

@[simp] theorem resetBlock_v0 (s : State) : (s.resetBlock).v0 = 0 := rfl
@[simp] theorem resetBlock_v1 (s : State) : (s.resetBlock).v1 = 0 := rfl
@[simp] theorem resetBlock_v2 (s : State) : (s.resetBlock).v2 = 0 := rfl
@[simp] theorem resetBlock_v3 (s : State) : (s.resetBlock).v3 = 0 := rfl
@[simp] theorem resetBlock_k0 (s : State) : (s.resetBlock).k0 = 0 := rfl
@[simp] theorem resetBlock_k1 (s : State) : (s.resetBlock).k1 = 0 := rfl
@[simp] theorem resetBlock_keyv (s : State) : (s.resetBlock).keyv = 0b00#2 := rfl
@[simp] theorem resetBlock_mode (s : State) : (s.resetBlock).mode = .bytes8 := rfl
@[simp] theorem resetBlock_phase (s : State) : (s.resetBlock).phase = .idle := rfl
@[simp] theorem resetBlock_len (s : State) : (s.resetBlock).len = 0 := rfl
@[simp] theorem resetBlock_h0 (s : State) : (s.resetBlock).h0 = 0 := rfl
@[simp] theorem resetBlock_h1 (s : State) : (s.resetBlock).h1 = 0 := rfl
@[simp] theorem resetBlock_err (s : State) : (s.resetBlock).err = none := rfl
@[simp] theorem resetBlock_inflight (s : State) : (s.resetBlock).inflight = none := rfl
@[simp] theorem resetBlock_host (s : State) : (s.resetBlock).host = s.host := rfl
@[simp] theorem resetBlock_cmdIndex (s : State) : (s.resetBlock).cmdIndex = s.cmdIndex := rfl
@[simp] theorem resetBlock_time (s : State) : (s.resetBlock).time = s.time := rfl

/-! ### tick: the environment's share of an edge -/

@[simp] theorem tick_v0 (s : State) : (s.tick).v0 = s.v0 := rfl
@[simp] theorem tick_v1 (s : State) : (s.tick).v1 = s.v1 := rfl
@[simp] theorem tick_v2 (s : State) : (s.tick).v2 = s.v2 := rfl
@[simp] theorem tick_v3 (s : State) : (s.tick).v3 = s.v3 := rfl
@[simp] theorem tick_k0 (s : State) : (s.tick).k0 = s.k0 := rfl
@[simp] theorem tick_k1 (s : State) : (s.tick).k1 = s.k1 := rfl
@[simp] theorem tick_keyv (s : State) : (s.tick).keyv = s.keyv := rfl
@[simp] theorem tick_mode (s : State) : (s.tick).mode = s.mode := rfl
@[simp] theorem tick_phase (s : State) : (s.tick).phase = s.phase := rfl
@[simp] theorem tick_len (s : State) : (s.tick).len = s.len := rfl
@[simp] theorem tick_h0 (s : State) : (s.tick).h0 = s.h0 := rfl
@[simp] theorem tick_h1 (s : State) : (s.tick).h1 = s.h1 := rfl
@[simp] theorem tick_err (s : State) : (s.tick).err = s.err := rfl
@[simp] theorem tick_inflight (s : State) : (s.tick).inflight = s.inflight := rfl
@[simp] theorem tick_host (s : State) : (s.tick).host = s.hostNext := rfl
@[simp] theorem tick_cmdIndex (s : State) : (s.tick).cmdIndex = s.cmdIndex := rfl
@[simp] theorem tick_time (s : State) : (s.tick).time = s.time + 1 := rfl

/-! ### accept: acceptance -/

@[simp] theorem accept_v0 (c : Command) (t : Nat) (s : State) : (s.accept c t).v0 = s.v0 := rfl
@[simp] theorem accept_v1 (c : Command) (t : Nat) (s : State) : (s.accept c t).v1 = s.v1 := rfl
@[simp] theorem accept_v2 (c : Command) (t : Nat) (s : State) : (s.accept c t).v2 = s.v2 := rfl
@[simp] theorem accept_v3 (c : Command) (t : Nat) (s : State) : (s.accept c t).v3 = s.v3 := rfl
@[simp] theorem accept_k0 (c : Command) (t : Nat) (s : State) : (s.accept c t).k0 = s.k0 := rfl
@[simp] theorem accept_k1 (c : Command) (t : Nat) (s : State) : (s.accept c t).k1 = s.k1 := rfl
@[simp] theorem accept_keyv (c : Command) (t : Nat) (s : State) : (s.accept c t).keyv = s.keyv := rfl
@[simp] theorem accept_mode (c : Command) (t : Nat) (s : State) : (s.accept c t).mode = s.mode := rfl
@[simp] theorem accept_phase (c : Command) (t : Nat) (s : State) : (s.accept c t).phase = s.phase := rfl
@[simp] theorem accept_len (c : Command) (t : Nat) (s : State) : (s.accept c t).len = s.len := rfl
@[simp] theorem accept_h0 (c : Command) (t : Nat) (s : State) : (s.accept c t).h0 = s.h0 := rfl
@[simp] theorem accept_h1 (c : Command) (t : Nat) (s : State) : (s.accept c t).h1 = s.h1 := rfl
@[simp] theorem accept_err (c : Command) (t : Nat) (s : State) : (s.accept c t).err = s.err := rfl
@[simp] theorem accept_inflight (c : Command) (t : Nat) (s : State) : (s.accept c t).inflight = some ⟨c, Config.latency (opField c.word) t⟩ := rfl
@[simp] theorem accept_host (c : Command) (t : Nat) (s : State) : (s.accept c t).host = s.host := rfl
@[simp] theorem accept_cmdIndex (c : Command) (t : Nat) (s : State) : (s.accept c t).cmdIndex = s.cmdIndex + 1 := rfl
@[simp] theorem accept_time (c : Command) (t : Nat) (s : State) : (s.accept c t).time = s.time := rfl

/-! ### countDown: one more busy cycle -/

@[simp] theorem countDown_v0 (f : InFlight) (s : State) : (s.countDown f).v0 = s.v0 := rfl
@[simp] theorem countDown_v1 (f : InFlight) (s : State) : (s.countDown f).v1 = s.v1 := rfl
@[simp] theorem countDown_v2 (f : InFlight) (s : State) : (s.countDown f).v2 = s.v2 := rfl
@[simp] theorem countDown_v3 (f : InFlight) (s : State) : (s.countDown f).v3 = s.v3 := rfl
@[simp] theorem countDown_k0 (f : InFlight) (s : State) : (s.countDown f).k0 = s.k0 := rfl
@[simp] theorem countDown_k1 (f : InFlight) (s : State) : (s.countDown f).k1 = s.k1 := rfl
@[simp] theorem countDown_keyv (f : InFlight) (s : State) : (s.countDown f).keyv = s.keyv := rfl
@[simp] theorem countDown_mode (f : InFlight) (s : State) : (s.countDown f).mode = s.mode := rfl
@[simp] theorem countDown_phase (f : InFlight) (s : State) : (s.countDown f).phase = s.phase := rfl
@[simp] theorem countDown_len (f : InFlight) (s : State) : (s.countDown f).len = s.len := rfl
@[simp] theorem countDown_h0 (f : InFlight) (s : State) : (s.countDown f).h0 = s.h0 := rfl
@[simp] theorem countDown_h1 (f : InFlight) (s : State) : (s.countDown f).h1 = s.h1 := rfl
@[simp] theorem countDown_err (f : InFlight) (s : State) : (s.countDown f).err = s.err := rfl
@[simp] theorem countDown_inflight (f : InFlight) (s : State) : (s.countDown f).inflight = some { f with left := f.left - 1 } := rfl
@[simp] theorem countDown_host (f : InFlight) (s : State) : (s.countDown f).host = s.host := rfl
@[simp] theorem countDown_cmdIndex (f : InFlight) (s : State) : (s.countDown f).cmdIndex = s.cmdIndex := rfl
@[simp] theorem countDown_time (f : InFlight) (s : State) : (s.countDown f).time = s.time := rfl

/-! ### retire: BUSY falling -/

@[simp] theorem retire_v0 (s : State) : (s.retire).v0 = s.v0 := rfl
@[simp] theorem retire_v1 (s : State) : (s.retire).v1 = s.v1 := rfl
@[simp] theorem retire_v2 (s : State) : (s.retire).v2 = s.v2 := rfl
@[simp] theorem retire_v3 (s : State) : (s.retire).v3 = s.v3 := rfl
@[simp] theorem retire_k0 (s : State) : (s.retire).k0 = s.k0 := rfl
@[simp] theorem retire_k1 (s : State) : (s.retire).k1 = s.k1 := rfl
@[simp] theorem retire_keyv (s : State) : (s.retire).keyv = s.keyv := rfl
@[simp] theorem retire_mode (s : State) : (s.retire).mode = s.mode := rfl
@[simp] theorem retire_phase (s : State) : (s.retire).phase = s.phase := rfl
@[simp] theorem retire_len (s : State) : (s.retire).len = s.len := rfl
@[simp] theorem retire_h0 (s : State) : (s.retire).h0 = s.h0 := rfl
@[simp] theorem retire_h1 (s : State) : (s.retire).h1 = s.h1 := rfl
@[simp] theorem retire_err (s : State) : (s.retire).err = s.err := rfl
@[simp] theorem retire_inflight (s : State) : (s.retire).inflight = none := rfl
@[simp] theorem retire_host (s : State) : (s.retire).host = s.host := rfl
@[simp] theorem retire_cmdIndex (s : State) : (s.retire).cmdIndex = s.cmdIndex := rfl
@[simp] theorem retire_time (s : State) : (s.retire).time = s.time := rfl

/-! ### place: placing a command for the next edge -/

@[simp] theorem place_v0 (c : Command) (s : State) : (s.place c).v0 = s.v0 := rfl
@[simp] theorem place_v1 (c : Command) (s : State) : (s.place c).v1 = s.v1 := rfl
@[simp] theorem place_v2 (c : Command) (s : State) : (s.place c).v2 = s.v2 := rfl
@[simp] theorem place_v3 (c : Command) (s : State) : (s.place c).v3 = s.v3 := rfl
@[simp] theorem place_k0 (c : Command) (s : State) : (s.place c).k0 = s.k0 := rfl
@[simp] theorem place_k1 (c : Command) (s : State) : (s.place c).k1 = s.k1 := rfl
@[simp] theorem place_keyv (c : Command) (s : State) : (s.place c).keyv = s.keyv := rfl
@[simp] theorem place_mode (c : Command) (s : State) : (s.place c).mode = s.mode := rfl
@[simp] theorem place_phase (c : Command) (s : State) : (s.place c).phase = s.phase := rfl
@[simp] theorem place_len (c : Command) (s : State) : (s.place c).len = s.len := rfl
@[simp] theorem place_h0 (c : Command) (s : State) : (s.place c).h0 = s.h0 := rfl
@[simp] theorem place_h1 (c : Command) (s : State) : (s.place c).h1 = s.h1 := rfl
@[simp] theorem place_err (c : Command) (s : State) : (s.place c).err = s.err := rfl
@[simp] theorem place_inflight (c : Command) (s : State) : (s.place c).inflight = some ⟨c, 1⟩ := rfl
@[simp] theorem place_host (c : Command) (s : State) : (s.place c).host = .cycle Pins.idle :: s.host := rfl
@[simp] theorem place_cmdIndex (c : Command) (s : State) : (s.place c).cmdIndex = s.cmdIndex := rfl
@[simp] theorem place_time (c : Command) (s : State) : (s.place c).time = s.time := rfl

/-! ### startMessage: a successful INIT -/

@[simp] theorem startMessage_v0 (m : Mode) (s : State) : (s.startMessage m).v0 = (initVec s.k0 s.k1 m).v0 := rfl
@[simp] theorem startMessage_v1 (m : Mode) (s : State) : (s.startMessage m).v1 = (initVec s.k0 s.k1 m).v1 := rfl
@[simp] theorem startMessage_v2 (m : Mode) (s : State) : (s.startMessage m).v2 = (initVec s.k0 s.k1 m).v2 := rfl
@[simp] theorem startMessage_v3 (m : Mode) (s : State) : (s.startMessage m).v3 = (initVec s.k0 s.k1 m).v3 := rfl
@[simp] theorem startMessage_k0 (m : Mode) (s : State) : (s.startMessage m).k0 = s.k0 := rfl
@[simp] theorem startMessage_k1 (m : Mode) (s : State) : (s.startMessage m).k1 = s.k1 := rfl
@[simp] theorem startMessage_keyv (m : Mode) (s : State) : (s.startMessage m).keyv = s.keyv := rfl
@[simp] theorem startMessage_mode (m : Mode) (s : State) : (s.startMessage m).mode = m := rfl
@[simp] theorem startMessage_phase (m : Mode) (s : State) : (s.startMessage m).phase = .absorb := rfl
@[simp] theorem startMessage_len (m : Mode) (s : State) : (s.startMessage m).len = 0 := rfl
@[simp] theorem startMessage_h0 (m : Mode) (s : State) : (s.startMessage m).h0 = 0 := rfl
@[simp] theorem startMessage_h1 (m : Mode) (s : State) : (s.startMessage m).h1 = 0 := rfl
@[simp] theorem startMessage_err (m : Mode) (s : State) : (s.startMessage m).err = s.err := rfl
@[simp] theorem startMessage_inflight (m : Mode) (s : State) : (s.startMessage m).inflight = s.inflight := rfl
@[simp] theorem startMessage_host (m : Mode) (s : State) : (s.startMessage m).host = s.host := rfl
@[simp] theorem startMessage_cmdIndex (m : Mode) (s : State) : (s.startMessage m).cmdIndex = s.cmdIndex := rfl
@[simp] theorem startMessage_time (m : Mode) (s : State) : (s.startMessage m).time = s.time := rfl

/-! ### absorbBlock: a successful ABSORB -/

@[simp] theorem absorbBlock_v0 (m : U64) (s : State) : (s.absorbBlock m).v0 = (compress s.vec m).v0 := rfl
@[simp] theorem absorbBlock_v1 (m : U64) (s : State) : (s.absorbBlock m).v1 = (compress s.vec m).v1 := rfl
@[simp] theorem absorbBlock_v2 (m : U64) (s : State) : (s.absorbBlock m).v2 = (compress s.vec m).v2 := rfl
@[simp] theorem absorbBlock_v3 (m : U64) (s : State) : (s.absorbBlock m).v3 = (compress s.vec m).v3 := rfl
@[simp] theorem absorbBlock_k0 (m : U64) (s : State) : (s.absorbBlock m).k0 = s.k0 := rfl
@[simp] theorem absorbBlock_k1 (m : U64) (s : State) : (s.absorbBlock m).k1 = s.k1 := rfl
@[simp] theorem absorbBlock_keyv (m : U64) (s : State) : (s.absorbBlock m).keyv = s.keyv := rfl
@[simp] theorem absorbBlock_mode (m : U64) (s : State) : (s.absorbBlock m).mode = s.mode := rfl
@[simp] theorem absorbBlock_phase (m : U64) (s : State) : (s.absorbBlock m).phase = s.phase := rfl
@[simp] theorem absorbBlock_len (m : U64) (s : State) : (s.absorbBlock m).len = add64 s.len (BitVec.ofNat 64 Config.blockBytes) := rfl
@[simp] theorem absorbBlock_h0 (m : U64) (s : State) : (s.absorbBlock m).h0 = s.h0 := rfl
@[simp] theorem absorbBlock_h1 (m : U64) (s : State) : (s.absorbBlock m).h1 = s.h1 := rfl
@[simp] theorem absorbBlock_err (m : U64) (s : State) : (s.absorbBlock m).err = s.err := rfl
@[simp] theorem absorbBlock_inflight (m : U64) (s : State) : (s.absorbBlock m).inflight = s.inflight := rfl
@[simp] theorem absorbBlock_host (m : U64) (s : State) : (s.absorbBlock m).host = s.host := rfl
@[simp] theorem absorbBlock_cmdIndex (m : U64) (s : State) : (s.absorbBlock m).cmdIndex = s.cmdIndex := rfl
@[simp] theorem absorbBlock_time (m : U64) (s : State) : (s.absorbBlock m).time = s.time := rfl

/-! ### finishMessage: a successful FINAL -/

@[simp] theorem finishMessage_v0 (nb : Nat) (d : U64) (s : State) : (s.finishMessage nb d).v0 = 0 := rfl
@[simp] theorem finishMessage_v1 (nb : Nat) (d : U64) (s : State) : (s.finishMessage nb d).v1 = 0 := rfl
@[simp] theorem finishMessage_v2 (nb : Nat) (d : U64) (s : State) : (s.finishMessage nb d).v2 = 0 := rfl
@[simp] theorem finishMessage_v3 (nb : Nat) (d : U64) (s : State) : (s.finishMessage nb d).v3 = 0 := rfl
@[simp] theorem finishMessage_k0 (nb : Nat) (d : U64) (s : State) : (s.finishMessage nb d).k0 = s.k0 := rfl
@[simp] theorem finishMessage_k1 (nb : Nat) (d : U64) (s : State) : (s.finishMessage nb d).k1 = s.k1 := rfl
@[simp] theorem finishMessage_keyv (nb : Nat) (d : U64) (s : State) : (s.finishMessage nb d).keyv = s.keyv := rfl
@[simp] theorem finishMessage_mode (nb : Nat) (d : U64) (s : State) : (s.finishMessage nb d).mode = s.mode := rfl
@[simp] theorem finishMessage_phase (nb : Nat) (d : U64) (s : State) : (s.finishMessage nb d).phase = .done := rfl
@[simp] theorem finishMessage_len (nb : Nat) (d : U64) (s : State) : (s.finishMessage nb d).len = totalLength s.len nb := rfl
@[simp] theorem finishMessage_h0 (nb : Nat) (d : U64) (s : State) : (s.finishMessage nb d).h0 = fold (firstOutput s.mode s.vec (tailBlock (totalLength s.len nb) nb d)) := rfl
@[simp] theorem finishMessage_h1 (nb : Nat) (d : U64) (s : State) : (s.finishMessage nb d).h1 = (match s.mode with
    | .bytes8 => s.h1
    | .bytes16 => fold (secondOutput (firstOutput s.mode s.vec (tailBlock (totalLength s.len nb) nb d)))) := rfl
@[simp] theorem finishMessage_err (nb : Nat) (d : U64) (s : State) : (s.finishMessage nb d).err = s.err := rfl
@[simp] theorem finishMessage_inflight (nb : Nat) (d : U64) (s : State) : (s.finishMessage nb d).inflight = s.inflight := rfl
@[simp] theorem finishMessage_host (nb : Nat) (d : U64) (s : State) : (s.finishMessage nb d).host = s.host := rfl
@[simp] theorem finishMessage_cmdIndex (nb : Nat) (d : U64) (s : State) : (s.finishMessage nb d).cmdIndex = s.cmdIndex := rfl
@[simp] theorem finishMessage_time (nb : Nat) (d : U64) (s : State) : (s.finishMessage nb d).time = s.time := rfl

/-! ### raise: recording an error -/

@[simp] theorem raise_v0 (e : ErrorCause) (s : State) : (s.raise e).v0 = s.v0 := by unfold State.raise; split <;> rfl
@[simp] theorem raise_v1 (e : ErrorCause) (s : State) : (s.raise e).v1 = s.v1 := by unfold State.raise; split <;> rfl
@[simp] theorem raise_v2 (e : ErrorCause) (s : State) : (s.raise e).v2 = s.v2 := by unfold State.raise; split <;> rfl
@[simp] theorem raise_v3 (e : ErrorCause) (s : State) : (s.raise e).v3 = s.v3 := by unfold State.raise; split <;> rfl
@[simp] theorem raise_k0 (e : ErrorCause) (s : State) : (s.raise e).k0 = s.k0 := by unfold State.raise; split <;> rfl
@[simp] theorem raise_k1 (e : ErrorCause) (s : State) : (s.raise e).k1 = s.k1 := by unfold State.raise; split <;> rfl
@[simp] theorem raise_keyv (e : ErrorCause) (s : State) : (s.raise e).keyv = s.keyv := by unfold State.raise; split <;> rfl
@[simp] theorem raise_mode (e : ErrorCause) (s : State) : (s.raise e).mode = s.mode := by unfold State.raise; split <;> rfl
@[simp] theorem raise_phase (e : ErrorCause) (s : State) : (s.raise e).phase = s.phase := by unfold State.raise; split <;> rfl
@[simp] theorem raise_len (e : ErrorCause) (s : State) : (s.raise e).len = s.len := by unfold State.raise; split <;> rfl
@[simp] theorem raise_h0 (e : ErrorCause) (s : State) : (s.raise e).h0 = s.h0 := by unfold State.raise; split <;> rfl
@[simp] theorem raise_h1 (e : ErrorCause) (s : State) : (s.raise e).h1 = s.h1 := by unfold State.raise; split <;> rfl
@[simp] theorem raise_inflight (e : ErrorCause) (s : State) : (s.raise e).inflight = s.inflight := by unfold State.raise; split <;> rfl
@[simp] theorem raise_host (e : ErrorCause) (s : State) : (s.raise e).host = s.host := by unfold State.raise; split <;> rfl
@[simp] theorem raise_cmdIndex (e : ErrorCause) (s : State) : (s.raise e).cmdIndex = s.cmdIndex := by unfold State.raise; split <;> rfl
@[simp] theorem raise_time (e : ErrorCause) (s : State) : (s.raise e).time = s.time := by unfold State.raise; split <;> rfl

/-- The first error is recorded (R19). -/
theorem raise_err_of_none {s : State} (e : ErrorCause) (h : s.err = none) : (s.raise e).err = some e := by
  simp [State.raise, h]

/-- A recorded error stays (R106). -/
theorem raise_of_some {s : State} {e' : ErrorCause} (e : ErrorCause) (h : s.err = some e') : s.raise e = s := by
  simp [State.raise, h]

/-- `raise` in one line: ERR takes the code unless it holds one. -/
theorem raise_eq (e : ErrorCause) (s : State) : s.raise e = { s with err := some (s.err.getD e) } := by
  unfold State.raise
  split <;> rename_i h <;> cases s <;> simp_all

@[simp] theorem raise_err (e : ErrorCause) (s : State) : (s.raise e).err = some (s.err.getD e) := by
  rw [raise_eq]

/-! ### The tuple of state words -/

@[simp] theorem vec_v0 (s : State) : s.vec.v0 = s.v0 := rfl
@[simp] theorem vec_v1 (s : State) : s.vec.v1 = s.v1 := rfl
@[simp] theorem vec_v2 (s : State) : s.vec.v2 = s.v2 := rfl
@[simp] theorem vec_v3 (s : State) : s.vec.v3 = s.v3 := rfl
@[simp] theorem vec_setVec (v : Vec4) (s : State) : (s.setVec v).vec = v := rfl
@[simp] theorem setVec_vec (s : State) : s.setVec s.vec = s := rfl

end Sys2Proof.Machine
end

