-- ==== Sys2Proof/Laws/Ops.lean ====
section
/-! SUPPORT. One lemma per shared operation that says everything it can do; proofs cite these instead of unfolding. -/

namespace Sys2Proof.Machine

/-! ### Edges -/

theorem busy_eq (s : State) : s.busy = s.inflight.isSome := rfl

theorem edge_reset_iff (s : State) : s.edge = .reset ↔ s.pins.rstN = false := by
  unfold State.edge
  cases h : s.pins.rstN
  · simp
  · simp only [↓reduceIte, Bool.true_eq_false, iff_false]
    split
    · split <;> simp
    · split <;> simp

/-- A command is accepted exactly when rst_n and cmd_valid are 1 and nothing is in flight, and it is the one on the
pins. -/
theorem edge_accept_iff (s : State) (c : Command) :
    s.edge = .accept c ↔
      s.pins.rstN = true ∧ s.pins.cmdValid = true ∧ s.inflight = none ∧ c = ⟨s.pins.cmdWord, s.pins.cmdData⟩ := by
  unfold State.edge
  cases h : s.pins.rstN
  · simp
  · cases hf : s.inflight with
    | none =>
      cases hv : s.pins.cmdValid
      · simp
      · simp [eq_comm]
    | some f =>
      simp only [↓reduceIte]
      split <;> simp

theorem edge_busy_iff (s : State) (f : InFlight) :
    s.edge = .busy f ↔ s.pins.rstN = true ∧ s.inflight = some f ∧ 1 < f.left := by
  unfold State.edge
  cases h : s.pins.rstN
  · simp
  · cases hf : s.inflight with
    | none => simp only [↓reduceIte]; split <;> simp
    | some g =>
      simp only [↓reduceIte]
      split
      · simp; intro h; subst h; omega
      · simp; intro h; subst h; omega

theorem edge_complete_iff (s : State) (c : Command) :
    s.edge = .complete c ↔ s.pins.rstN = true ∧ ∃ f, s.inflight = some f ∧ f.left ≤ 1 ∧ f.cmd = c := by
  unfold State.edge
  cases h : s.pins.rstN
  · simp
  · cases hf : s.inflight with
    | none => simp only [↓reduceIte]; split <;> simp
    | some g =>
      simp only [↓reduceIte]
      split <;> simp_all

theorem edge_idle_iff (s : State) :
    s.edge = .idle ↔ s.pins.rstN = true ∧ s.inflight = none ∧ s.pins.cmdValid = false := by
  unfold State.edge
  cases h : s.pins.rstN
  · simp
  · cases hf : s.inflight with
    | none => cases hv : s.pins.cmdValid <;> simp
    | some g => simp only [↓reduceIte]; split <;> simp

/-- A placed command completes at the next edge. -/
@[simp] theorem edge_place (c : Command) (s : State) : (s.place c).edge = .complete c := by
  simp [State.edge, State.place, State.pins, HostAct.pins, Pins.idle]

@[simp] theorem hostNext_place (c : Command) (s : State) : (s.place c).hostNext = s.host := rfl

/-! ### Commands -/

theorem execInit_spec (outlen : Nat) (s : State) :
    execInit outlen s =
      if s.keyv = 0b11#2 then
        (match modeOf outlen with
          | none => .next (s.raise .unsupportedOutputLength)
          | some m => .next (s.startMessage m))
      else .next (s.raise .invalidKeyLength) := by
  unfold execInit
  by_cases h : s.keyv = 0b11#2 <;> cases modeOf outlen <;> simp [h]

/-- Everything a command can do: it answers a next state, which is one of these. -/
theorem exec_cases (i : Instr) (s t : State) (h : exec i s = .next t) :
    (i = .nop ∧ t = s) ∨
    (∃ k, i = .ldk0 k ∧ t = { s with k0 := k, keyv := setKeyv0 s.keyv }) ∨
    (∃ k, i = .ldk1 k ∧ t = { s with k1 := k, keyv := setKeyv1 s.keyv }) ∨
    (∃ n, i = .init n ∧ s.keyv ≠ 0b11#2 ∧ t = s.raise .invalidKeyLength) ∨
    (∃ n, i = .init n ∧ s.keyv = 0b11#2 ∧ modeOf n = none ∧ t = s.raise .unsupportedOutputLength) ∨
    (∃ n m, i = .init n ∧ s.keyv = 0b11#2 ∧ modeOf n = some m ∧ t = s.startMessage m) ∨
    (∃ m, i = .absorb m ∧ s.phase ≠ .absorb ∧ t = s.raise .sequenceError) ∨
    (∃ m, i = .absorb m ∧ s.phase = .absorb ∧ t = s.absorbBlock m) ∨
    (∃ nb d, i = .final nb d ∧ s.phase ≠ .absorb ∧ t = s.raise .sequenceError) ∨
    (∃ nb d, i = .final nb d ∧ s.phase = .absorb ∧ t = s.finishMessage nb d) ∨
    (i = .clrerr ∧ t = s.clearErr) ∨
    (i = .clear ∧ t = s.zeroize) := by
  cases i with
  | nop => simp_all [exec, execNop]
  | ldk0 k => simp_all [exec, execLdk0]
  | ldk1 k => simp_all [exec, execLdk1]
  | init n =>
    simp only [exec, execInit_spec] at h
    by_cases hk : s.keyv = 0b11#2
    · cases hm : modeOf n <;> simp_all
    · simp_all
  | absorb m =>
    by_cases hp : s.phase = .absorb <;> simp_all [exec, execAbsorb]
  | final nb d =>
    by_cases hp : s.phase = .absorb <;> simp_all [exec, execFinal]
  | clrerr => simp_all [exec, execClrerr]
  | clear => simp_all [exec, execClear]

/-- What a command accepted as `c` does: its decoded command's rule, or IllegalCommand. -/
theorem execCommand_cases (c : Command) (s t : State) (h : execCommand c s = .next t) :
    (∃ i, decode c = .ok i ∧ exec i s = .next t) ∨ (∃ k, decode c = .error k ∧ t = s.raise .illegalCommand) := by
  unfold execCommand at h
  split at h
  · exact .inl ⟨_, ‹_›, h⟩
  · refine .inr ⟨_, ‹_›, ?_⟩
    simpa [illegalCommand] using h.symm

/-- Everything a step can do. -/
theorem step_cases (s t : State) (h : step s = .next t) :
    (s.edge = .reset ∧ t = s.tick.resetBlock) ∨
    (∃ c, s.edge = .accept c ∧ t = s.tick.accept c s.time) ∨
    (∃ f, s.edge = .busy f ∧ t = s.tick.countDown f) ∨
    (∃ c, s.edge = .complete c ∧ execCommand c s.tick.retire = .next t) ∨
    (s.edge = .idle ∧ t = s.tick) := by
  unfold step at h
  split at h <;> simp_all

/-- A step at a completing edge is the command's rule. -/
theorem step_of_complete {s : State} {c : Command} (h : s.edge = .complete c) :
    step s = execCommand c s.tick.retire := by
  simp [step, h]

/-- The spec's wording of a failing command (R97) is what `raise` does. -/
theorem recorded_eq_raise (e : ErrorCause) (s : State) : s.recorded e = s.raise e := by
  unfold State.recorded State.raise
  cases h : s.err <;> simp

/-! ### Runs -/

@[simp] theorem runCommands_nil (s : State) : runCommands [] s = .next s := rfl

theorem runCommands_cons_of_next {c : Command} {s t : State} (cs : List Command) (h : execCommand c s = .next t) :
    runCommands (c :: cs) s = runCommands cs t := by
  simp [runCommands, h]

theorem runCommands_append {cs ds : List Command} {s t : State} (h : runCommands cs s = .next t) :
    runCommands (cs ++ ds) s = runCommands ds t := by
  induction cs generalizing s with
  | nil => simp_all [runCommands]
  | cons c cs ih =>
    simp only [List.cons_append, runCommands] at h ⊢
    cases hc : execCommand c s with
    | next u => rw [hc] at h; simpa using ih h
    | fault r => rw [hc] at h; simp at h
    | refused r => rw [hc] at h; simp at h

/-- One step and then the rest of a run. -/
theorem run_succ_of_next {n : Nat} {s t : State} (h : step s = .next t) :
    Host.Core.run Sys2Proof.core (n + 1) s = Host.Core.run Sys2Proof.core n t := by
  simp [Host.Core.run, Sys2Proof.core, h]

/-! ### Datapath -/

theorem compress_eq_sourceWord (v : Vec4) (m : U64) : compress v m = sourceWord v m := rfl

theorem rounds_four_eq_sourceFour (v : Vec4) : rounds Config.dRounds v = sourceFour v := rfl

end Sys2Proof.Machine
end

