-- ==== Sys2Proof/Laws/PerInstr.lean ====
section
/-! SUPPORT. The per-command law families of LAWS.json. -/

namespace Sys2Proof.Laws.EncodedFields

/-- The opcode of a command, the OP column of 30_encoding.md R50. -/
def opcode : Instr → Nat
  | .nop => 0x00
  | .ldk0 _ => 0x01
  | .ldk1 _ => 0x02
  | .init _ => 0x03
  | .absorb _ => 0x04
  | .final _ _ => 0x05
  | .clrerr => 0x06
  | .clear => 0x07

/-- The encoding of a well-formed command has OP as R50 lists it, and its reserved and unused fields are 0 (R45, R48). -/
def Statement (i : Instr) : Prop :=
  i.wellFormed = true → (opField (encode i).word).toNat = opcode i ∧ wordWellFormed (encode i).word = true

theorem nop : Statement .nop := fun _ => by decide
theorem ldk0 (k : U64) : Statement (.ldk0 k) := fun _ => by simp only [encode, opcode]; decide
theorem ldk1 (k : U64) : Statement (.ldk1 k) := fun _ => by simp only [encode, opcode]; decide

theorem init_of_fits : ∀ n : Fin 256,
    (opField (encode (.init n.val)).word).toNat = 3 ∧ wordWellFormed (encode (.init n.val)).word = true := by
  decide +kernel

theorem init (outlen : Nat) : Statement (.init outlen) := fun h =>
  init_of_fits ⟨outlen, by simpa [Instr.wellFormed, outlenFits] using h⟩

theorem absorb (m : U64) : Statement (.absorb m) := fun _ => by simp only [encode, opcode]; decide

theorem final_of_fits : ∀ n : Fin 8,
    (opField (encode (.final n.val 0)).word).toNat = 5 ∧ wordWellFormed (encode (.final n.val 0)).word = true := by
  decide +kernel

theorem final (nb : Nat) (tail : U64) : Statement (.final nb tail) := fun h =>
  final_of_fits ⟨nb, by simpa [Instr.wellFormed, nbFits] using h⟩

theorem clrerr : Statement .clrerr := fun _ => by decide
theorem clear : Statement .clear := fun _ => by decide

end Sys2Proof.Laws.EncodedFields
end

