-- ==== Sys2Proof/Tests/Slice0.lean ====
section
/-! SUPPORT. Tests whose expected values are the spec's own (95_test_vectors.md), the smoke tests of WellFormed, and one
witness per statement that has hypotheses. -/

namespace Sys2Proof.Tests

open Sys2Proof Sys2Proof.Machine

/-! ### WellFormed refuses -/

theorem test_outlen_too_wide : (Instr.init 256).wellFormed = false := by decide
theorem test_nb_too_wide : (Instr.final 8 0).wellFormed = false := by decide
theorem test_word_opcode_unassigned : wordWellFormed 0x00000008#32 = false := by decide
theorem test_word_rsv0_set : wordWellFormed 0x00000803#32 = false := by decide
theorem test_word_rsv1_set : wordWellFormed 0x80000001#32 = false := by decide
theorem test_word_nb_unused : wordWellFormed 0x00000104#32 = false := by decide
theorem test_word_outlen_unused : wordWellFormed 0x00080005#32 = false := by decide
theorem test_asm_key_of_8_bytes : (AsmLine.ldkey [0, 1, 2, 3, 4, 5, 6, 7]).wellFormed = false := by decide
theorem test_asm_hash_outlen : (AsmLine.hash 256 []).wellFormed = false := by decide
theorem test_asm_word_too_wide : (AsmLine.word (2 ^ 32) 0).wellFormed = false := by decide
theorem test_asm_data_too_wide : (AsmLine.word 0 (2 ^ 64)).wellFormed = false := by decide

/-! ### Decoding: each word written out bit by bit from R44 and R50 -/

theorem test_decode_nop : decode ⟨0b00000000000000000000000000000000#32, 5⟩ = .ok .nop := by decide
theorem test_decode_ldk0 : decode ⟨0b00000000000000000000000000000001#32, 5⟩ = .ok (.ldk0 5) := by decide
theorem test_decode_ldk1 : decode ⟨0b00000000000000000000000000000010#32, 5⟩ = .ok (.ldk1 5) := by decide
theorem test_decode_init : decode ⟨0b00000000000100000000000000000011#32, 5⟩ = .ok (.init 16) := by decide
theorem test_decode_absorb : decode ⟨0b00000000000000000000000000000100#32, 5⟩ = .ok (.absorb 5) := by decide
theorem test_decode_final : decode ⟨0b00000000000000000000011000000101#32, 5⟩ = .ok (.final 6 5) := by decide
theorem test_decode_clrerr : decode ⟨0b00000000000000000000000000000110#32, 5⟩ = .ok .clrerr := by decide
theorem test_decode_clear : decode ⟨0b00000000000000000000000000000111#32, 5⟩ = .ok .clear := by decide
/-- L2-9: the three kinds of illegal words, each by name. -/
theorem test_decode_illegal_kinds :
    decode ⟨0x000000ff#32, 0⟩ = .error .unassignedOpcode ∧ decode ⟨0x00000805#32, 0⟩ = .error .reservedNonzero ∧
    decode ⟨0x01000004#32, 0⟩ = .error .reservedNonzero ∧ decode ⟨0x00000100#32, 0⟩ = .error .unusedFieldNonzero := by
  decide
/-- R55: `INIT 8` is 0x00080003 and `FINAL 7` is 0x00000705. -/
theorem test_encode_words :
    (encode (.init 8)).word = 0x00080003#32 ∧ (encode (.final 7 0)).word = 0x00000705#32 := by decide

/-! ### Datapath and byte order -/

/-- L2-1. -/
theorem test_rotl64 :
    rotl64 0x0123456789abcdef#64 17 = 0x8acf13579bde0246#64 ∧ rotl64 0x8000000000000001#64 13 = 0x3000#64 := by decide
/-- L2-2, the row of ones: the sums wrap. -/
theorem test_sipRound :
    sipRound ⟨-1, -1, -1, -1⟩ =
      ⟨0xffffffff00000000#64, 0xfffffffffffdffff#64, 0xffffffffffffffff#64, 0xffffffff00200000#64⟩ := by decide
/-- L2-3. -/
theorem test_fold :
    fold ⟨0xe738d0dfdc9b2453#64, 0x214ac5771e0c4cd2#64, 0xe2ea71f68a57ef6d#64, 0x56f7bf1995ce89dd#64⟩ =
      0x726fdb47dd0e0e31#64 := by decide
/-- R32: the first key half of key 00 01 .. 0f. -/
theorem test_le64At : le64At [0, 1, 2, 3, 4, 5, 6, 7] 0 = 0x0706050403020100#64 := by decide
/-- L2-6, n = 9: the block and the padded tail. -/
theorem test_split_of_nine_bytes :
    messageBlocks [0, 1, 2, 3, 4, 5, 6, 7, 8] = [0x0706050403020100#64] ∧
    tailLength [0, 1, 2, 3, 4, 5, 6, 7, 8] = 1 ∧ tailWord [0, 1, 2, 3, 4, 5, 6, 7, 8] = 8#64 := by decide
/-- L2-6, n = 15, with dirty DATA. -/
theorem test_tailBlock : tailBlock 15 7 0xaa0e0d0c0b0a0908#64 = 0x0f0e0d0c0b0a0908#64 := by decide

/-! ### Commands -/

/-- The key 00 01 .. 0f loaded after reset. -/
def keyed : State :=
  { State.reset with k0 := 0x0706050403020100#64, k1 := 0x0f0e0d0c0b0a0908#64, keyv := 0b11#2 }

/-- A message in progress, with the state words given. -/
def absorbing (mode : Mode) (v : Vec4) (len : U64) : State :=
  { keyed with mode := mode, phase := .absorb, v0 := v.v0, v1 := v.v1, v2 := v.v2, v3 := v.v3, len := len }

/-- L2-4.2's state words. -/
def v42 : Vec4 := ⟨0x7469686173716475#64, 0x6b617f6d656e6665#64, 0x6b7f62616d677361#64, 0x7b6b696e727e6c7b#64⟩

/-- L2-8: NOP from a state with an error. -/
theorem test_nop :
    nextState? (exec .nop { keyed with err := some .sequenceError }) = some { keyed with err := some .sequenceError } := by
  decide
/-- L2-4.1. -/
theorem test_ldk0 :
    (nextState? (exec (.ldk0 0x0706050403020100#64) State.reset)).map (fun t => (t.k0, t.status)) =
      some (0x0706050403020100#64, 0x10#64) := by decide
/-- R68. -/
theorem test_ldk1 :
    (nextState? (exec (.ldk1 0x0f0e0d0c0b0a0908#64) { keyed with k1 := 0, keyv := 0b01#2 })).map
      (fun t => (t.k1, t.status)) = some (0x0f0e0d0c0b0a0908#64, 0x30#64) := by decide
/-- L2-4.3. -/
theorem test_init_16 :
    (nextState? (exec (.init 16) keyed)).map (fun t => (t.vec, t.status)) =
      some ({ v42 with v1 := 0x6b617f6d656e668b#64 }, 0x3a#64) := by decide
/-- L2-4.8: the key check has priority. -/
theorem test_init_4_without_key :
    (nextState? (exec (.init 4) { keyed with keyv := 0b01#2 })).map (fun t => t.status) = some 0x310#64 := by decide
/-- L2-5.3. -/
theorem test_absorb :
    (nextState? (exec (.absorb 0x0706050403020100#64) (absorbing .bytes8 v42 0))).map (fun t => (t.vec, t.len)) =
      some (⟨0x4a017198de0a59e0#64, 0x0d52f6f62a4f59a4#64, 0x634cb3577b01fd3d#64, 0xa5224d6f55c7d9c8#64⟩, 8#64) := by
  decide +kernel
/-- L2-5.4: LEN wraps. -/
theorem test_absorb_len_wraps :
    (nextState? (exec (.absorb 0) (absorbing .bytes8 ⟨0, 0, 0, 0⟩ 0xfffffffffffffff8#64))).map
      (fun t => (t.vec, t.len)) = some (⟨0, 0, 0, 0⟩, 0#64) := by decide +kernel
/-- L1-1, the source's vector, from L2-4.2: 31 0e 0e dd 47 db 6f 72. -/
theorem test_final_source_vector :
    (nextState? (exec (.final 0 0) (absorbing .bytes8 v42 0))).map (fun t => (t.digest, t.status)) =
      some ([0x31, 0x0e, 0x0e, 0xdd, 0x47, 0xdb, 0x6f, 0x72], 0x34#64) := by decide +kernel
/-- L2-7.4 with P2's dirty DATA, from L2-5.5. -/
theorem test_final_mode1_dirty_tail :
    (nextState? (exec (.final 7 0xaa0e0d0c0b0a0908#64)
      (absorbing .bytes16 ⟨0xcab17422de0a5832#64, 0xed5036c15e6adbc8#64, 0x1ad531357b024c1d#64, 0x799248d555c7dc22#64⟩ 8))).map
        (fun t => (t.h0, t.h1, t.len, t.status)) =
      some (0x11a8b03399e99354#64, 0xd9c3cf970fec087e#64, 15#64, 0x3c#64) := by decide +kernel
/-- R90. -/
theorem test_clrerr :
    (nextState? (exec .clrerr { State.reset with err := some .sequenceError })).map (fun t => t.status) = some 0#64 := by
  decide
/-- L2-8. -/
theorem test_clear : nextState? (exec .clear (absorbing .bytes16 v42 8)) = some State.reset := by decide
/-- P4: an illegal word after a recorded SequenceError records nothing new. -/
theorem test_illegal_word_keeps_first_error :
    nextState? (execCommand ⟨0x00000104#32, 0⟩ { keyed with err := some .sequenceError }) =
      some { keyed with err := some .sequenceError } := by decide

/-- The reference algorithm of Safety.lean on L1-1 and on L1-4's n = 9 (MODE 1). -/
theorem test_siphash_reference :
    siphash [] [0, 1, 2, 3, 4, 5, 6, 7, 8, 9, 10, 11, 12, 13, 14, 15] 8 =
      [0x31, 0x0e, 0x0e, 0xdd, 0x47, 0xdb, 0x6f, 0x72] ∧
    siphash [0, 1, 2, 3, 4, 5, 6, 7, 8] [0, 1, 2, 3, 4, 5, 6, 7, 8, 9, 10, 11, 12, 13, 14, 15] 16 =
      [0x26, 0x44, 0x99, 0x06, 0x0a, 0xd9, 0xba, 0xab, 0xc4, 0x7f, 0x8b, 0x02, 0xbb, 0x6d, 0x71, 0xed] := by
  decide +kernel

/-! ### The first step after reset runs the placed command -/

theorem test_first_step_runs_ldk0 :
    (nextState? (step (State.reset.withFetchWord 96 0x070605040302010000000001))).map (fun t => (t.k0, t.status)) =
      some (0x0706050403020100#64, 0x10#64) := by decide
theorem test_first_step_runs_illegal :
    (nextState? (step (State.reset.withFetchWord 32 0x00000008))).map (fun t => t.status) = some 0x100#64 := by decide

/-! ### Witnesses: a concrete state and operands that meet all hypotheses of a statement together -/

/-- A host that presents one command. -/
def presents (c : Command) (s : State) : State := { s with host := [.send c] }
/-- A command in flight with `left` busy cycles. -/
def flying (c : Command) (left : Nat) (s : State) : State := { s with inflight := some ⟨c, left⟩ }
/-- A host that asserts reset. -/
def resetting (s : State) : State := { s with host := [.cycle ⟨false, true, 1, 2, 3⟩] }
/-- A finished message. -/
def finished : State := { keyed with phase := .done, len := 15, h0 := 7 }

theorem witness_DecodeAndEncodeAgree :
    (Instr.init 255).wellFormed = true ∧ (Instr.final 7 3).wellFormed = true ∧
    decode ⟨0x00ff0003#32, 9⟩ = .ok (.init 255) := by decide
theorem witness_IllegalWordsAreTheThreeKinds :
    decode ⟨0x00000008#32, 0⟩ = .error .unassignedOpcode ∧ decode ⟨0x00000800#32, 0⟩ = .error .reservedNonzero ∧
    decode ⟨0x00010000#32, 0⟩ = .error .unusedFieldNonzero := by decide
theorem witness_RotationMovesEachBit : 1 ≤ 1 ∧ 63 ≤ 63 ∧ 0 < 64 ∧ 63 < 64 := by decide
theorem witness_NopLeavesEveryState : (presents ⟨0, 5⟩ keyed).edge = .accept ⟨0x00000000#32, 5⟩ := by decide
theorem witness_InitStartsMessage :
    255 < 256 ∧ State.reset.keyv ≠ 0b11#2 ∧ (keyed.keyv = 0b11#2 ∧ 9 ≠ 8 ∧ 9 ≠ 16) := by decide
theorem witness_AbsorbCompressesBlock : (absorbing .bytes8 v42 0).phase = .absorb ∧ State.reset.phase ≠ .absorb := by
  decide
theorem witness_FinalProducesDigest :
    7 < 8 ∧ (0x0f0e0d0c0b0a0908#64).toNat =
      ((absorbing .bytes16 v42 8).len.toNat + 7) % 256 * 2 ^ 56 + (0xaa0e0d0c0b0a0908#64).toNat % 2 ^ (8 * 7) ∧
    (absorbing .bytes16 v42 8).phase = .absorb ∧ keyed.phase ≠ .absorb := by decide
theorem witness_FinalProducesDigest_empty_tail :
    0 < 8 ∧ (0x0800000000000000#64).toNat =
      ((absorbing .bytes8 v42 8).len.toNat + 0) % 256 * 2 ^ 56 + (5#64).toNat % 2 ^ (8 * 0) := by decide
theorem witness_TailBlockBytes : 7 < 8 ∧ 6 < 7 ∧ (0 < 8 ∧ 0 ≤ 0 ∧ 0 < 7) ∧ (3 ≤ 6 ∧ 6 < 7) := by decide
theorem witness_FinalIgnoresDataAboveTail :
    1 < 8 ∧ ∀ i, i < 1 → byteOf 0xaa01#64 i = byteOf 0xbb01#64 i := by decide
theorem witness_ClrerrClearsOnlyErr : keyed.err = none := by decide
theorem witness_ClearZeroizes :
    keyed.busy = false ∧ exec .clear keyed = .next State.reset ∧ Instr.nop ≠ .clear ∧ exec .nop keyed = .next keyed ∧
    keyed.keyv.getLsbD 1 = true := ⟨by decide, rfl, by decide, rfl, by decide⟩
theorem witness_OnlyInitReadsTheKey :
    (∀ n, Instr.final 0 0 ≠ .init n) ∧
    ((∀ k, Instr.nop ≠ .ldk0 k) ∧ (∀ k, Instr.nop ≠ .ldk1 k) ∧ Instr.nop ≠ .clear ∧ exec .nop keyed = .next keyed) ∧
    (∃ t, exec (.ldk0 1) keyed = .next t) ∧ ∃ t, exec (.ldk1 1) keyed = .next t :=
  ⟨by simp, ⟨by simp, by simp, by simp, rfl⟩, ⟨_, rfl⟩, ⟨_, rfl⟩⟩
theorem witness_LegalityByPhase :
    keyed.err = none ∧ illegalWord 0x00000009#32 = true ∧ illegalWord 0x00000800#32 = true ∧
    illegalWord 0x00010000#32 = true := by decide
theorem witness_ErrIsSticky :
    (∃ t, step (flying ⟨6, 0⟩ 1 { keyed with err := some .sequenceError }) = .next t) ∧
    (resetting { keyed with err := some .sequenceError }).edge = .reset ∧
    (flying ⟨6, 0⟩ 1 keyed).edge = .complete ⟨6, 0⟩ ∧ decode ⟨6, 0⟩ = .ok .clrerr ∧
    (flying ⟨7, 0⟩ 1 keyed).edge = .complete ⟨7, 0⟩ ∧ decode ⟨7, 0⟩ = .ok .clear ∧
    ((∃ t, step (flying ⟨4, 0⟩ 1 keyed) = .next t) ∧ keyed.err = none) :=
  ⟨⟨_, rfl⟩, by decide, by decide, by decide, by decide, by decide, ⟨_, rfl⟩, rfl⟩
/-- Both ways a nonzero ERR field goes on: kept by a NOP, cleared by a CLRERR. -/
theorem witness_StatusLayout :
    (∃ t, step (flying ⟨0, 0⟩ 1 { keyed with err := some .invalidKeyLength }) = .next t) ∧
    (∃ t, step (flying ⟨6, 0⟩ 1 { keyed with err := some .invalidKeyLength }) = .next t) ∧
    (flying ⟨6, 0⟩ 1 { keyed with err := some .invalidKeyLength }).status.extractLsb' 8 3 ≠ 0 :=
  ⟨⟨_, rfl⟩, ⟨_, rfl⟩, by decide⟩
theorem witness_AbsorbedBlocksFold :
    (absorbing .bytes8 v42 0).phase = .absorb ∧ (absorbing .bytes8 v42 0).keyv = 0b11#2 ∧
    ∀ c ∈ [Command.mk 4 1, ⟨0, 0⟩, ⟨1, 9⟩, ⟨2, 9⟩, ⟨6, 0⟩, ⟨8, 0⟩, ⟨0x00040003, 0⟩, ⟨4, 2⟩],
      sparesMessage c = true ∨ (absorbedBlock c).isSome = true := by decide
theorem witness_WholeMessageLaw :
    ([0, 1, 2, 3, 4, 5, 6, 7, 8, 9, 10, 11, 12, 13, 14, 15] : List Byte).length = 16 ∧ (16 = 8 ∨ 16 = 16) ∧
    0xaa00000000000008#64 &&& tailMask (tailLength [0, 1, 2, 3, 4, 5, 6, 7, 8]) = tailWord [0, 1, 2, 3, 4, 5, 6, 7, 8] ∧
    keyed.keyv = 0b11#2 ∧ keyed.k0 = le64At [0, 1, 2, 3, 4, 5, 6, 7, 8, 9, 10, 11, 12, 13, 14, 15] 0 ∧
    keyed.k1 = le64At [0, 1, 2, 3, 4, 5, 6, 7, 8, 9, 10, 11, 12, 13, 14, 15] 8 := by decide
theorem witness_PresentedBytesAreHashed : keyed.keyv = 0b11#2 ∧ (8 = 8 ∨ 8 = 16) ∧ 7 < 8 := by decide
theorem witness_ReadPortFollowsMap :
    4 ≤ (4#3).toNat ∧ 4 ≤ (7#3).toNat ∧ finished.busy = false ∧ (flying ⟨0, 0⟩ 1 keyed).busy = true ∧
    (1 ≤ (1#3).toNat ∧ (1#3).toNat ≤ 3) ∧ (1 ≤ (3#3).toNat ∧ (3#3).toNat ≤ 3) ∧
    keyed.sameButSecrets { keyed with k0 := 1, v2 := 5 } := ⟨by decide, by decide, by decide, by decide, by decide, by decide, rfl⟩
theorem witness_ReadsHaveNoSideEffect : finished.edge = .idle := by decide
theorem witness_OnlyFinalRevealsSecrets :
    (flying ⟨4, 0⟩ 1 (absorbing .bytes8 v42 0)).sameButSecrets
      { flying ⟨4, 0⟩ 1 (absorbing .bytes8 v42 0) with k0 := 1, v2 := 5 } ∧
    ∀ c nb d, (flying ⟨4, 0⟩ 1 (absorbing .bytes8 v42 0)).edge = .complete c → decode c ≠ .ok (.final nb d) := by
  refine ⟨rfl, fun c nb d h => ?_⟩
  have hc : (flying ⟨4, 0⟩ 1 (absorbing .bytes8 v42 0)).edge = .complete ⟨4, 0⟩ := by decide
  rw [hc] at h
  cases h
  have hd : decode ⟨4, 0⟩ = .ok (.absorb 0) := by decide
  intro hf
  rw [hd] at hf
  cases hf
theorem witness_StepRunsTheDecodedCommand :
    (flying ⟨0x00080003, 0⟩ 1 keyed).edge = .complete ⟨0x00080003, 0⟩ ∧ decode ⟨0x00080003, 0⟩ = .ok (.init 8) ∧
    (flying ⟨8, 0⟩ 1 keyed).edge = .complete ⟨8, 0⟩ ∧ decode ⟨8, 0⟩ = .error .unassignedOpcode ∧
    decodeTableWord 32 5 = some (.final 0 0) := by decide
theorem witness_ResetEdgeResetsEverything :
    (resetting (flying ⟨1, 5⟩ 3 keyed)).pins.rstN = false ∧ ∃ t, step (resetting (flying ⟨1, 5⟩ 3 keyed)) = .next t :=
  ⟨by decide, ⟨_, rfl⟩⟩
theorem witness_ReadyIsNotBusy : keyed.pins.rstN = true ∧ (resetting keyed).pins.rstN = false := by decide
theorem witness_AcceptanceNeedsValidAndReady :
    ((presents ⟨1, 5⟩ keyed).pins.rstN = true ∧ (presents ⟨1, 5⟩ keyed).pins.cmdValid = true ∧
      (presents ⟨1, 5⟩ keyed).cmdReady = true) ∧
    (∃ t, step (presents ⟨1, 5⟩ (flying ⟨0, 0⟩ 2 keyed)) = .next t) ∧
    ¬ ((presents ⟨1, 5⟩ (flying ⟨0, 0⟩ 2 keyed)).pins.rstN = true ∧
      (presents ⟨1, 5⟩ (flying ⟨0, 0⟩ 2 keyed)).pins.cmdValid = true ∧
      (presents ⟨1, 5⟩ (flying ⟨0, 0⟩ 2 keyed)).cmdReady = true) := ⟨by decide, ⟨_, rfl⟩, by decide⟩
/-- The three edges the statement speaks of: accept, busy, idle. -/
theorem witness_NothingHappensBetweenCommands :
    (∃ t, step (presents ⟨1, 5⟩ keyed) = .next t) ∧ (presents ⟨1, 5⟩ keyed).edge = .accept ⟨1, 5⟩ ∧
    (∃ t, step (flying ⟨1, 5⟩ 2 keyed) = .next t) ∧ (flying ⟨1, 5⟩ 2 keyed).edge = .busy ⟨⟨1, 5⟩, 2⟩ ∧
    (∃ t, step keyed = .next t) ∧ keyed.edge = .idle :=
  ⟨⟨_, rfl⟩, by decide, ⟨_, rfl⟩, by decide, ⟨_, rfl⟩, by decide⟩
theorem witness_CommandsAreAtomicAndComplete :
    ({ keyed with host := [.send ⟨1, 5⟩, .send ⟨2, 6⟩, .wait] }).edge = .accept ⟨1, 5⟩ ∧
    ∀ a ∈ [HostAct.send ⟨1, 5⟩, .send ⟨2, 6⟩, .wait], a.pins.rstN = true := by decide
theorem witness_CommandsRunInOrder :
    keyed.inflight = none ∧
    ({ keyed with host := [.send ⟨1, 5⟩, .send ⟨8, 6⟩] }).host = [Command.mk 1 5, ⟨8, 6⟩].map .send := by decide
theorem witness_AssembledProgramHashes :
    finished.inflight = none ∧
    ([0, 1, 2, 3, 4, 5, 6, 7, 8, 9, 10, 11, 12, 13, 14, 15] : List Byte).length = 16 ∧ (8 = 8 ∨ 8 = 16) := by decide
theorem witness_EndedRunStaysEnded : finished.runEnded = true := by decide
/-- For each kind of edge a state whose step answers a next state: the hypothesis of PhaseChangesOnlyAsListed,
LenCountsMessageBytes and KeyChangesOnlyAsListed, case by case. -/
theorem witness_step_by_edge :
    (∃ t, step (resetting finished) = .next t) ∧ (resetting finished).edge = .reset ∧
    (∃ t, step (presents ⟨1, 5⟩ finished) = .next t) ∧ (presents ⟨1, 5⟩ finished).edge = .accept ⟨1, 5⟩ ∧
    (∃ t, step (flying ⟨1, 5⟩ 2 finished) = .next t) ∧ (flying ⟨1, 5⟩ 2 finished).edge = .busy ⟨⟨1, 5⟩, 2⟩ ∧
    (∃ t, step (flying ⟨0x00080003, 0⟩ 1 finished) = .next t) ∧
    (flying ⟨0x00080003, 0⟩ 1 finished).edge = .complete ⟨0x00080003, 0⟩ ∧
    (∃ t, step finished = .next t) ∧ finished.edge = .idle :=
  ⟨⟨_, rfl⟩, by decide, ⟨_, rfl⟩, by decide, ⟨_, rfl⟩, by decide, ⟨_, rfl⟩, by decide, ⟨_, rfl⟩, by decide⟩
theorem witness_DigestStandsUntilNextMessage :
    (∃ t, step (flying ⟨4, 0⟩ 1 finished) = .next t) ∧ (flying ⟨4, 0⟩ 1 finished).phase = .done ∧
    (flying ⟨4, 0⟩ 1 finished).edge ≠ .reset ∧
    ∀ c, (flying ⟨4, 0⟩ 1 finished).edge = .complete c → decode c ≠ .ok .clear ∧
      ((flying ⟨4, 0⟩ 1 finished).keyv = 0b11#2 → decode c ≠ .ok (.init 8) ∧ decode c ≠ .ok (.init 16)) := by
  refine ⟨⟨_, rfl⟩, by decide, by decide, fun c h => ?_⟩
  have hc : (flying ⟨4, 0⟩ 1 finished).edge = .complete ⟨4, 0⟩ := by decide
  rw [hc] at h
  cases h
  decide
theorem witness_StepKeepsInvariant :
    (flying ⟨4, 9⟩ 1 (absorbing .bytes16 v42 8)).Inv ∧
    ∃ t, step (flying ⟨4, 9⟩ 1 (absorbing .bytes16 v42 8)) = .next t := ⟨by decide, ⟨_, rfl⟩⟩

end Sys2Proof.Tests
end

/-! PROOFS. The little-endian packing (00_scope.md R10, 20_memory.md R31): what each byte of a packed word is, and
that a word is determined by its eight bytes. -/

namespace Sys2Proof.Machine

/-! ### The bytes of a concatenation -/

theorem extractLsb'_zero_append {n : Nat} (hi : BitVec n) (lo : Byte) : (hi ++ lo).extractLsb' 0 8 = lo :=
  (BitVec.extractLsb'_append_eq_of_add_le (by omega)).trans BitVec.extractLsb'_eq_self

theorem extractLsb'_succ_append {n : Nat} (hi : BitVec n) (lo : Byte) (i : Nat) :
    (hi ++ lo).extractLsb' (8 * (i + 1)) 8 = hi.extractLsb' (8 * i) 8 :=
  BitVec.extractLsb'_append_eq_of_le (by omega)

/-! ### byteOf and le64 -/

/-- For place `i`, peel the `i` lower bytes off the concatenation; the next one is byte `i`. -/
theorem byteOf_le64 (b0 b1 b2 b3 b4 b5 b6 b7 : Byte) {i : Nat} (hi : i < 8) :
    byteOf (le64 b0 b1 b2 b3 b4 b5 b6 b7) i = [b0, b1, b2, b3, b4, b5, b6, b7].getD i 0 := by
  unfold byteOf le64
  interval_cases i <;>
    simp only [extractLsb'_succ_append, Nat.mul_zero, extractLsb'_zero_append, BitVec.extractLsb'_eq_self,
      List.getD_cons_zero, List.getD_cons_succ]

theorem getLsbD_byteOf (x : U64) (i j : Nat) :
    (byteOf x i).getLsbD j = (decide (j < 8) && x.getLsbD (8 * i + j)) :=
  BitVec.getLsbD_extractLsb' ..

/-- A word is determined by its bytes: its bit `k` is bit `k % 8` of byte `k / 8`. -/
theorem eq_of_byteOf_eq {x y : U64} (h : ∀ i < 8, byteOf x i = byteOf y i) : x = y := by
  refine BitVec.eq_of_getLsbD_eq fun k hk => ?_
  have hbit : (byteOf x (k / 8)).getLsbD (k % 8) = (byteOf y (k / 8)).getLsbD (k % 8) := by
    rw [h (k / 8) (by omega)]
  have hmod : k % 8 < 8 := Nat.mod_lt _ (by decide)
  simpa only [getLsbD_byteOf, hmod, decide_true, Bool.true_and, Nat.div_add_mod] using hbit

theorem le64Bytes_le64 (b0 b1 b2 b3 b4 b5 b6 b7 : Byte) :
    le64Bytes (le64 b0 b1 b2 b3 b4 b5 b6 b7) = [b0, b1, b2, b3, b4, b5, b6, b7] := by
  simp [le64Bytes, byteOf_le64]

theorem le64_byteOf (x : U64) :
    le64 (byteOf x 0) (byteOf x 1) (byteOf x 2) (byteOf x 3) (byteOf x 4) (byteOf x 5) (byteOf x 6)
      (byteOf x 7) = x := by
  refine eq_of_byteOf_eq fun i hi => ?_
  rw [byteOf_le64 _ _ _ _ _ _ _ _ hi]
  interval_cases i <;> rfl

/-- Settles O9: each byte of a packed word is the one put there, and a word equals any word with its bytes. -/
theorem littleEndianRoundTrip : Obligations.LittleEndianRoundTrip :=
  ⟨le64Bytes_le64, le64_byteOf⟩

end Sys2Proof.Machine

/-! PROOFS. What a command can do, one constructor per outcome, and what a step keeps: the invariant of the block, the
registers between commands, PHASE, LEN, the key, STATUS, and what is shown of V0..V3 and the key (10_state.md). -/

namespace Sys2Proof.Machine

/-! ### The outcomes of a command -/

/-- `Effect s i t`: command `i` takes the block from `s` to `t`. One constructor per outcome of a command's rule, with
the condition under which it is the outcome (`exec_eq_next_iff` ties it to `exec`). -/
inductive Effect (s : State) : Instr → State → Prop where
  | nop : Effect s .nop s
  | ldk0 (k : U64) : Effect s (.ldk0 k) { s with k0 := k, keyv := setKeyv0 s.keyv }
  | ldk1 (k : U64) : Effect s (.ldk1 k) { s with k1 := k, keyv := setKeyv1 s.keyv }
  | initNoKey (n : Nat) (hkey : s.keyv ≠ 0b11#2) : Effect s (.init n) (s.raise .invalidKeyLength)
  | initBadLength (n : Nat) (hkey : s.keyv = 0b11#2) (hmode : modeOf n = none) :
      Effect s (.init n) (s.raise .unsupportedOutputLength)
  | initStarts (n : Nat) (m : Mode) (hkey : s.keyv = 0b11#2) (hmode : modeOf n = some m) :
      Effect s (.init n) (s.startMessage m)
  | absorbOutOfPhase (m : U64) (hphase : s.phase ≠ .absorb) : Effect s (.absorb m) (s.raise .sequenceError)
  | absorbCompresses (m : U64) (hphase : s.phase = .absorb) : Effect s (.absorb m) (s.absorbBlock m)
  | finalOutOfPhase (nb : Nat) (d : U64) (hphase : s.phase ≠ .absorb) : Effect s (.final nb d) (s.raise .sequenceError)
  | finalFinishes (nb : Nat) (d : U64) (hphase : s.phase = .absorb) : Effect s (.final nb d) (s.finishMessage nb d)
  | clrerr : Effect s .clrerr s.clearErr
  | clear : Effect s .clear s.zeroize

theorem effect_of_exec {i : Instr} {s t : State} (h : exec i s = .next t) : Effect s i t := by
  obtain ⟨rfl, rfl⟩ | ⟨k, rfl, rfl⟩ | ⟨k, rfl, rfl⟩ | ⟨n, rfl, hk, rfl⟩ | ⟨n, rfl, hk, hm, rfl⟩ |
    ⟨n, m, rfl, hk, hm, rfl⟩ | ⟨m, rfl, hp, rfl⟩ | ⟨m, rfl, hp, rfl⟩ | ⟨nb, d, rfl, hp, rfl⟩ | ⟨nb, d, rfl, hp, rfl⟩ |
    ⟨rfl, rfl⟩ | ⟨rfl, rfl⟩ := exec_cases i s t h <;> constructor <;> assumption

theorem exec_of_effect {i : Instr} {s t : State} (e : Effect s i t) : exec i s = .next t := by
  cases e <;> simp [exec, execNop, execLdk0, execLdk1, execInit_spec, execAbsorb, execFinal, execClrerr, execClear, *]

theorem exec_eq_next_iff {i : Instr} {s t : State} : exec i s = .next t ↔ Effect s i t :=
  ⟨effect_of_exec, exec_of_effect⟩

/-- Every command has an outcome: the conditions of a command's constructors leave no state out. -/
theorem exists_effect (i : Instr) (s : State) : ∃ t, Effect s i t := by
  cases i with
  | nop => exact ⟨_, .nop⟩
  | ldk0 k => exact ⟨_, .ldk0 k⟩
  | ldk1 k => exact ⟨_, .ldk1 k⟩
  | init n =>
    by_cases hkey : s.keyv = 0b11#2
    · cases hmode : modeOf n with
      | none => exact ⟨_, .initBadLength n hkey hmode⟩
      | some m => exact ⟨_, .initStarts n m hkey hmode⟩
    · exact ⟨_, .initNoKey n hkey⟩
  | absorb m =>
    by_cases hphase : s.phase = .absorb
    · exact ⟨_, .absorbCompresses m hphase⟩
    · exact ⟨_, .absorbOutOfPhase m hphase⟩
  | final nb d =>
    by_cases hphase : s.phase = .absorb
    · exact ⟨_, .finalFinishes nb d hphase⟩
    · exact ⟨_, .finalOutOfPhase nb d hphase⟩
  | clrerr => exact ⟨_, .clrerr⟩
  | clear => exact ⟨_, .clear⟩

/-- At a completing edge the block takes an outcome of the decoded command, or records IllegalCommand. -/
theorem complete_cases {c : Command} {s t : State} (h : execCommand c s = .next t) :
    (∃ i, decode c = .ok i ∧ Effect s i t) ∨ (∃ k, decode c = .error k ∧ t = s.raise .illegalCommand) :=
  (execCommand_cases c s t h).imp (fun ⟨i, hi, hx⟩ => ⟨i, hi, effect_of_exec hx⟩) id

/-! ### The operands the outcomes depend on -/

/-- OUTLEN names a mode only when it is 8 or 16 (R47, R101). -/
theorem modeOf_eq_none_iff (n : Nat) : modeOf n = none ↔ ¬ (n = 8 ∨ n = 16) := by
  unfold modeOf
  split_ifs <;> simp_all

theorem outlen_of_modeOf_eq_some {n : Nat} {m : Mode} (h : modeOf n = some m) : n = 8 ∨ n = 16 :=
  not_not.mp fun hn => by simp [(modeOf_eq_none_iff n).mpr hn] at h

@[simp] theorem setKeyv0_bit0 (k : BitVec 2) : (setKeyv0 k)[0] = true := by simp [setKeyv0]
@[simp] theorem setKeyv0_bit1 (k : BitVec 2) : (setKeyv0 k)[1] = k[1] := by simp [setKeyv0]
@[simp] theorem setKeyv1_bit0 (k : BitVec 2) : (setKeyv1 k)[0] = k[0] := by simp [setKeyv1]
@[simp] theorem setKeyv1_bit1 (k : BitVec 2) : (setKeyv1 k)[1] = true := by simp [setKeyv1]

/-- LEN modulo 8 is not disturbed by the wrap at 2^64. -/
theorem add64_blockBytes_mod (x : U64) : (add64 x (BitVec.ofNat 64 Config.blockBytes)).toNat % 8 = x.toNat % 8 := by
  simp only [add64, Config.blockBytes, BitVec.toNat_add, BitVec.toNat_ofNat]
  omega

/-! ### The invariant of the block, operation by operation -/

section Invariant

variable {s : State}

/-- Only the block's registers matter to the invariant: the host's share of an edge moves none of them. -/
theorem inv_tick (h : s.Inv) : s.tick.Inv := h

theorem inv_retire (h : s.Inv) : s.retire.Inv := by
  obtain ⟨hvec, hdigest, hshort, hidle, hkey, hunloaded, hlen, -⟩ := h
  exact ⟨hvec, hdigest, hshort, hidle, hkey, hunloaded, hlen, rfl⟩

/-- A latency is at least 1 (R118). -/
theorem inv_accept (h : s.Inv) (c : Command) (n : Nat) : (s.accept c n).Inv := by
  obtain ⟨hvec, hdigest, hshort, hidle, hkey, hunloaded, hlen, -⟩ := h
  refine ⟨hvec, hdigest, hshort, hidle, hkey, hunloaded, hlen, ?_⟩
  simp [State.busyHasCyclesLeft, Config.latency]

theorem inv_countDown (h : s.Inv) {f : InFlight} (hleft : 1 < f.left) : (s.countDown f).Inv := by
  obtain ⟨hvec, hdigest, hshort, hidle, hkey, hunloaded, hlen, -⟩ := h
  refine ⟨hvec, hdigest, hshort, hidle, hkey, hunloaded, hlen, ?_⟩
  simp only [State.busyHasCyclesLeft, countDown_inflight, Option.all_some, decide_eq_true_eq]
  omega

/-- The invariant does not speak of ERR. -/
theorem inv_raise (h : s.Inv) (e : ErrorCause) : (s.raise e).Inv := by
  rw [raise_eq]
  exact h

theorem inv_clearErr (h : s.Inv) : s.clearErr.Inv := h

/-- Zeroized registers meet the invariant whatever they held; the command in flight is kept. -/
theorem inv_zeroize (hbusy : s.busyHasCyclesLeft) : s.zeroize.Inv :=
  ⟨fun _ => ⟨rfl, rfl, rfl, rfl⟩, fun _ => ⟨rfl, rfl⟩, fun _ => rfl, fun _ => ⟨rfl, rfl⟩, fun h => absurd rfl h,
    ⟨fun _ => rfl, fun _ => rfl⟩, nofun, hbusy⟩

theorem inv_resetBlock (s : State) : s.resetBlock.Inv := inv_zeroize (s := s.retire) rfl

/-- LDK0 writes a loaded half, so no unloaded half becomes nonzero; and a key that was complete stays complete. -/
theorem inv_loadKey0 (h : s.Inv) (k : U64) : State.Inv { s with k0 := k, keyv := setKeyv0 s.keyv } := by
  obtain ⟨hvec, hdigest, hshort, hidle, hkey, ⟨-, hk1⟩, hlen, hbusy⟩ := h
  refine ⟨hvec, hdigest, hshort, hidle, fun hphase => ?_, ⟨fun hbit => ?_, fun hbit => hk1 ?_⟩, hlen, hbusy⟩
  · simp [setKeyv0, hkey hphase]
  · simp at hbit
  · simpa using hbit

theorem inv_loadKey1 (h : s.Inv) (k : U64) : State.Inv { s with k1 := k, keyv := setKeyv1 s.keyv } := by
  obtain ⟨hvec, hdigest, hshort, hidle, hkey, ⟨hk0, -⟩, hlen, hbusy⟩ := h
  refine ⟨hvec, hdigest, hshort, hidle, fun hphase => ?_, ⟨fun hbit => hk0 ?_, fun hbit => ?_⟩, hlen, hbusy⟩
  · simp [setKeyv1, hkey hphase]
  · simpa using hbit
  · simp at hbit

/-- A successful INIT leaves LEN, H0 and H1 at 0, and it needs the whole key. -/
theorem inv_startMessage (h : s.Inv) (m : Mode) (hkeyv : s.keyv = 0b11#2) : (s.startMessage m).Inv := by
  obtain ⟨-, -, -, -, -, hunloaded, -, hbusy⟩ := h
  exact ⟨fun hne => absurd rfl hne, fun _ => ⟨rfl, rfl⟩, fun _ => rfl, nofun, fun _ => hkeyv,
    hunloaded, fun _ => rfl, hbusy⟩

/-- An ABSORB changes V0..V3, which are free during a message, and LEN by a whole block. -/
theorem inv_absorbBlock (h : s.Inv) (m : U64) (hphase : s.phase = .absorb) : (s.absorbBlock m).Inv := by
  obtain ⟨-, hdigest, hshort, -, hkey, hunloaded, hlen, hbusy⟩ := h
  refine ⟨fun hne => absurd hphase hne, hdigest, hshort, fun hidle => ?_, hkey, hunloaded, fun _ => ?_, hbusy⟩
  · exact absurd (hphase.symm.trans hidle) (by decide)
  · rw [absorbBlock_len, add64_blockBytes_mod, hlen hphase]

/-- A successful FINAL zeroes V0..V3; in MODE 0 it keeps H1, which was 0. -/
theorem inv_finishMessage (h : s.Inv) (nb : Nat) (d : U64) (hphase : s.phase = .absorb) :
    (s.finishMessage nb d).Inv := by
  obtain ⟨-, -, hshort, -, hkey, hunloaded, -, hbusy⟩ := h
  refine ⟨fun _ => ⟨rfl, rfl, rfl, rfl⟩, fun hne => absurd rfl hne, fun hmode => ?_, nofun,
    fun _ => hkey ?_, hunloaded, nofun, hbusy⟩
  · have hmode : s.mode = .bytes8 := hmode
    simp [hmode, hshort hmode]
  · simp [hphase]

theorem inv_effect {i : Instr} {t : State} (h : s.Inv) (e : Effect s i t) : t.Inv := by
  cases e with
  | nop => exact h
  | ldk0 k => exact inv_loadKey0 h k
  | ldk1 k => exact inv_loadKey1 h k
  | initNoKey | initBadLength | absorbOutOfPhase | finalOutOfPhase => exact inv_raise h _
  | initStarts n m hkey _ => exact inv_startMessage h m hkey
  | absorbCompresses m hphase => exact inv_absorbBlock h m hphase
  | finalFinishes nb d hphase => exact inv_finishMessage h nb d hphase
  | clrerr => exact inv_clearErr h
  | clear =>
    obtain ⟨-, -, -, -, -, -, -, hbusy⟩ := h
    exact inv_zeroize hbusy

theorem inv_execCommand {c : Command} {t : State} (h : s.Inv) (hc : execCommand c s = .next t) : t.Inv := by
  obtain ⟨i, -, e⟩ | ⟨k, -, rfl⟩ := complete_cases hc
  · exact inv_effect h e
  · exact inv_raise h _

end Invariant

/-- Settles O47: each kind of edge keeps the invariant, a completing one because each outcome of a command does. -/
theorem stepKeepsInvariant : Obligations.StepKeepsInvariant := by
  intro s t h hstep
  obtain ⟨-, rfl⟩ | ⟨c, -, rfl⟩ | ⟨f, hedge, rfl⟩ | ⟨c, -, hc⟩ | ⟨-, rfl⟩ := step_cases s t hstep
  · exact inv_resetBlock _
  · exact inv_accept (inv_tick h) c _
  · obtain ⟨-, -, hleft⟩ := (edge_busy_iff s f).mp hedge
    exact inv_countDown (inv_tick h) hleft
  · exact inv_execCommand (inv_retire (inv_tick h)) hc
  · exact inv_tick h

/-- Settles O46: right after reset every register of the block is 0 and nothing is in flight. -/
theorem resetMeetsInvariant : Obligations.ResetMeetsInvariant := inv_resetBlock State.reset

/-! ### Frames -/

/-- No outcome of a command writes the command in flight or the environment's fields. -/
theorem effect_keeps_environment {i : Instr} {s t : State} (e : Effect s i t) :
    t.inflight = s.inflight ∧ t.host = s.host ∧ t.cmdIndex = s.cmdIndex ∧ t.time = s.time := by
  cases e <;> simp

/-- Settles O19: every command has an outcome, and each outcome keeps those fields. -/
theorem commandsWriteOnlyTheBlock : Obligations.CommandsWriteOnlyTheBlock := by
  intro i s
  obtain ⟨t, e⟩ := exists_effect i s
  exact ⟨t, exec_of_effect e, effect_keeps_environment e⟩

/-- Settles O36: what is left are the accepting, the busy and the idle edge, and these write only the command in flight
and the environment's fields. -/
theorem nothingHappensBetweenCommands : Obligations.NothingHappensBetweenCommands := by
  intro s t h hreset hcomplete
  obtain ⟨he, -⟩ | ⟨c, -, rfl⟩ | ⟨f, -, rfl⟩ | ⟨c, he, -⟩ | ⟨-, rfl⟩ := step_cases s t h
  · exact absurd he hreset
  · rfl
  · rfl
  · exact absurd he (hcomplete c)
  · rfl

/-! ### PHASE, LEN and the key, edge by edge -/

/-- Settles O42: of the outcomes of a command, only CLEAR's and those of a successful INIT or FINAL write PHASE. -/
theorem phaseChangesOnlyAsListed : Obligations.PhaseChangesOnlyAsListed := by
  intro s t h
  obtain ⟨he, rfl⟩ | ⟨c, he, rfl⟩ | ⟨f, he, rfl⟩ | ⟨c, he, hc⟩ | ⟨he, rfl⟩ := step_cases s t h
  · simp [he]
  · simp [he]
  · simp [he]
  · obtain ⟨i, hi, e⟩ | ⟨k, hk, rfl⟩ := complete_cases hc
    · simp only [he, hi]
      cases e with
      | nop | ldk0 | ldk1 | absorbOutOfPhase | absorbCompresses | clrerr | clear => simp
      | initNoKey n hkey => simp [show s.keyv ≠ 0b11#2 from hkey]
      | initBadLength n hkey hmode => simp [(modeOf_eq_none_iff n).mp hmode]
      | initStarts n m hkey hmode => simp [show s.keyv = 0b11#2 from hkey, outlen_of_modeOf_eq_some hmode]
      | finalOutOfPhase nb d hphase => simp [show s.phase ≠ .absorb from hphase]
      | finalFinishes nb d hphase => simp [show s.phase = .absorb from hphase]
    · simp [he, hk]
  · simp [he]

/-- Settles O43: LEN is zeroed by CLEAR and a successful INIT, and counts the bytes of a successful ABSORB or FINAL. -/
theorem lenCountsMessageBytes : Obligations.LenCountsMessageBytes := by
  intro s t h
  obtain ⟨he, rfl⟩ | ⟨c, he, rfl⟩ | ⟨f, he, rfl⟩ | ⟨c, he, hc⟩ | ⟨he, rfl⟩ := step_cases s t h
  · simp [he]
  · simp [he]
  · simp [he]
  · obtain ⟨i, hi, e⟩ | ⟨k, hk, rfl⟩ := complete_cases hc
    · simp only [he, hi]
      cases e with
      | nop | ldk0 | ldk1 | clrerr | clear => simp
      | initNoKey n hkey => simp [show s.keyv ≠ 0b11#2 from hkey]
      | initBadLength n hkey hmode => simp [(modeOf_eq_none_iff n).mp hmode]
      | initStarts n m hkey hmode => simp [show s.keyv = 0b11#2 from hkey, outlen_of_modeOf_eq_some hmode]
      | absorbOutOfPhase m hphase => simp [show s.phase ≠ .absorb from hphase]
      | absorbCompresses m hphase => simp [show s.phase = .absorb from hphase, add64, Config.blockBytes]
      | finalOutOfPhase nb d hphase => simp [show s.phase ≠ .absorb from hphase]
      | finalFinishes nb d hphase => simp [show s.phase = .absorb from hphase, totalLength, add64, zextNb]
    · simp [he, hk]
  · simp [he]

/-- Settles O44: of the outcomes of a command, only those of LDK0, LDK1 and CLEAR write the key. -/
theorem keyChangesOnlyAsListed : Obligations.KeyChangesOnlyAsListed := by
  intro s t h
  obtain ⟨he, rfl⟩ | ⟨c, he, rfl⟩ | ⟨f, he, rfl⟩ | ⟨c, he, hc⟩ | ⟨he, rfl⟩ := step_cases s t h
  · simp [he]
  · simp [he]
  · simp [he]
  · obtain ⟨i, hi, e⟩ | ⟨k, hk, rfl⟩ := complete_cases hc
    · simp only [he, hi]
      cases e with
      | ldk0 | ldk1 | clear => simp
      | nop | initNoKey | initBadLength | initStarts => simp
      | absorbOutOfPhase | absorbCompresses | finalOutOfPhase | finalFinishes | clrerr => simp
    · simp [he, hk]
  · simp [he]

/-! ### STATUS and ERR -/

/-- STATUS field by field (R21): each cut falls on the boundaries of the concatenation. -/
theorem status_fields (s : State) :
    s.status.extractLsb' 0 1 = BitVec.ofBool s.busy ∧ s.status.extractLsb' 1 2 = s.phase.bits ∧
    s.status.extractLsb' 3 1 = s.mode.bit ∧ s.status.extractLsb' 4 2 = s.keyv ∧ s.status.extractLsb' 6 2 = 0#2 ∧
    s.status.extractLsb' 8 3 = s.errBits ∧ s.status.extractLsb' 11 53 = 0#53 := by
  unfold State.status
  refine ⟨?_, ?_, ?_, ?_, ?_, ?_, ?_⟩ <;>
    simp (disch := decide) only [BitVec.extractLsb'_append_eq_of_le, BitVec.extractLsb'_append_eq_of_add_le,
      Nat.reduceSub, BitVec.extractLsb'_eq_self]

theorem status_err_field (s : State) : s.status.extractLsb' 8 3 = s.errBits := by
  obtain ⟨-, -, -, -, -, herr, -⟩ := status_fields s
  exact herr

theorem errBits_eq_zero_iff (s : State) : s.errBits = 0 ↔ s.err = none := by
  unfold State.errBits
  cases s.err with
  | none => simp
  | some e => cases e <;> simp [ErrorCause.code]

/-- A recorded error stays, but for CLRERR and CLEAR (R90, R91, R106). -/
theorem effect_err_of_some {i : Instr} {s t : State} {x : ErrorCause} (e : Effect s i t) (hx : s.err = some x) :
    t.err = some x ∨ (t.err = none ∧ (i = .clrerr ∨ i = .clear)) := by
  cases e <;> simp [hx]

/-- A step keeps a recorded error unless it is a reset or completes CLRERR or CLEAR (R19, R106). -/
theorem step_err_of_some {s t : State} {x : ErrorCause} (h : step s = .next t) (hx : s.err = some x) :
    t.err = some x ∨
      (t.err = none ∧ (s.edge = .reset ∨
        ∃ c, s.edge = .complete c ∧ (decode c = .ok .clrerr ∨ decode c = .ok .clear))) := by
  obtain ⟨he, rfl⟩ | ⟨c, he, rfl⟩ | ⟨f, he, rfl⟩ | ⟨c, he, hc⟩ | ⟨he, rfl⟩ := step_cases s t h
  · exact .inr ⟨rfl, .inl he⟩
  · exact .inl hx
  · exact .inl hx
  · obtain ⟨i, hi, e⟩ | ⟨k, -, rfl⟩ := complete_cases hc
    · obtain hkept | ⟨hcleared, rfl | rfl⟩ := effect_err_of_some e hx
      · exact .inl hkept
      · exact .inr ⟨hcleared, .inr ⟨c, he, .inl hi⟩⟩
      · exact .inr ⟨hcleared, .inr ⟨c, he, .inr hi⟩⟩
    · simp [hx]
  · exact .inl hx

theorem readPort_zero (s : State) : s.readPort 0 = s.status := by
  simp [State.readPort, State.readMap]

/-- STATUS's ERR field is nonzero exactly when ERR holds an error, so it is kept and cleared as ERR is. -/
theorem step_status_err_field {s t : State} (h : step s = .next t) (hne : s.status.extractLsb' 8 3 ≠ 0) :
    t.status.extractLsb' 8 3 = s.status.extractLsb' 8 3 ∨
      (t.status.extractLsb' 8 3 = 0 ∧ (s.edge = .reset ∨
        ∃ c, s.edge = .complete c ∧ (decode c = .ok .clrerr ∨ decode c = .ok .clear))) := by
  simp only [status_err_field, ne_eq, errBits_eq_zero_iff] at hne ⊢
  obtain ⟨x, hx⟩ := Option.ne_none_iff_exists'.mp hne
  refine (step_err_of_some h hx).imp_left fun hkept => ?_
  simp only [State.errBits, hkept, hx]

/-- Settles O28: the fields of STATUS, written out as codes; and the ERR field follows ERR. -/
theorem statusLayout : Obligations.StatusLayout := by
  refine ⟨fun s => ?_, fun s t => step_status_err_field, rfl⟩
  obtain ⟨hbusy, hphase, hmode, hkeyv, hlow, herr, hhigh⟩ := status_fields s
  refine ⟨readPort_zero s, ?_, hphase, hmode, hkeyv, hlow, ?_, hhigh⟩
  · rw [hbusy]
    cases s.busy <;> rfl
  · rw [herr, State.errBits]
    cases s.err with
    | none => rfl
    | some e => cases e <;> rfl

/-! ### What is shown of V0..V3 and the key -/

/-- `s` with other values of V0..V3, K0 and K1, the registers without a read address (R29). -/
def State.withSecrets (v : Vec4) (k0 k1 : U64) (s : State) : State := { s.setVec v with k0 := k0, k1 := k1 }

theorem sameButSecrets_iff (s t : State) : s.sameButSecrets t ↔ ∃ v k0 k1, t = s.withSecrets v k0 k1 :=
  ⟨fun h => ⟨t.vec, t.k0, t.k1, h⟩, by rintro ⟨v, k0, k1, rfl⟩; rfl⟩

theorem sameButSecrets_raise {s t : State} (h : s.sameButSecrets t) (e : ErrorCause) :
    (s.raise e).sameButSecrets (t.raise e) := by
  obtain ⟨v, k0, k1, rfl⟩ := (sameButSecrets_iff s t).mp h
  rw [raise_eq, raise_eq]
  rfl

/-- Only a FINAL lets V0..V3 into a register that can be read: any other command takes two states that differ only in
V0..V3 and the key to two such states. -/
theorem effect_sameButSecrets {i : Instr} {s t u : State} (h : s.sameButSecrets t)
    (hnotFinal : ∀ nb d, i ≠ .final nb d) (e : Effect s i u) : ∃ u', Effect t i u' ∧ u.sameButSecrets u' := by
  have hraise := sameButSecrets_raise h
  obtain ⟨v, k0, k1, rfl⟩ := (sameButSecrets_iff s t).mp h
  cases e with
  | nop => exact ⟨_, .nop, rfl⟩
  | ldk0 k => exact ⟨_, .ldk0 k, rfl⟩
  | ldk1 k => exact ⟨_, .ldk1 k, rfl⟩
  | initNoKey n hkey => exact ⟨_, .initNoKey n hkey, hraise _⟩
  | initBadLength n hkey hmode => exact ⟨_, .initBadLength n hkey hmode, hraise _⟩
  | initStarts n m hkey hmode => exact ⟨_, .initStarts n m hkey hmode, rfl⟩
  | absorbOutOfPhase m hphase => exact ⟨_, .absorbOutOfPhase m hphase, hraise _⟩
  | absorbCompresses m hphase => exact ⟨_, .absorbCompresses m hphase, rfl⟩
  | finalOutOfPhase nb d _ => exact absurd rfl (hnotFinal nb d)
  | finalFinishes nb d _ => exact absurd rfl (hnotFinal nb d)
  | clrerr => exact ⟨_, .clrerr, rfl⟩
  | clear => exact ⟨_, .clear, rfl⟩

theorem execCommand_sameButSecrets {c : Command} {s t : State} (h : s.sameButSecrets t)
    (hnotFinal : ∀ nb d, decode c ≠ .ok (.final nb d)) :
    ∃ s' t', execCommand c s = .next s' ∧ execCommand c t = .next t' ∧ s'.sameButSecrets t' := by
  cases hd : decode c with
  | ok i =>
    obtain ⟨s', e⟩ := exists_effect i s
    obtain ⟨t', e', hsame⟩ := effect_sameButSecrets h (fun nb d hi => hnotFinal nb d (hi ▸ hd)) e
    exact ⟨s', t', by simp [execCommand, hd, exec_of_effect e], by simp [execCommand, hd, exec_of_effect e'], hsame⟩
  | error k =>
    have hraise (u : State) : execCommand c u = .next (u.raise .illegalCommand) := by
      simp [execCommand, hd, illegalCommand]
    exact ⟨_, _, hraise s, hraise t, sameButSecrets_raise h _⟩

/-- Settles O31: the read port, the handshake and the edge do not look at V0..V3 or the key, and at a completing edge
only a FINAL carries them into a readable register. -/
theorem onlyFinalRevealsSecrets : Obligations.OnlyFinalRevealsSecrets := by
  intro s t h
  obtain ⟨v, k0, k1, rfl⟩ := (sameButSecrets_iff s t).mp h
  refine ⟨fun _ => rfl, rfl, fun hnotFinal => ?_⟩
  have hedge : (s.withSecrets v k0 k1).edge = s.edge := rfl
  simp only [step, hedge]
  cases he : s.edge with
  | reset => exact ⟨_, _, rfl, rfl, rfl⟩
  | accept c => exact ⟨_, _, rfl, rfl, rfl⟩
  | busy f => exact ⟨_, _, rfl, rfl, rfl⟩
  | complete c => exact execCommand_sameButSecrets rfl fun nb d => hnotFinal c nb d he
  | idle => exact ⟨_, _, rfl, rfl, rfl⟩

end Sys2Proof.Machine

/-! PROOFS. The host's side of the block: the read port (20_memory.md R28 to R30), and a list of presented commands from
the first acceptance to the last completion (R40, 70_reset_and_hazards.md R117, R118). -/

namespace Sys2Proof.Machine

/-! ### The read port -/

/-- The addresses whose reads BUSY hides (R119). -/
theorem hiddenWhileBusy_iff (a : BitVec 3) :
    (a = 1#3 ∨ a = 2#3 ∨ a = 3#3) ↔ 1 ≤ a.toNat ∧ a.toNat ≤ 3 := by
  simp only [← BitVec.toNat_inj, BitVec.toNat_ofNat]
  omega

theorem readPort_of_not_busy {s : State} (h : s.busy = false) (a : BitVec 3) : s.readPort a = s.readMap a := by
  simp [State.readPort, h]

theorem readPort_of_busy {s : State} {a : BitVec 3} (h : s.busy = true) (hlo : 1 ≤ a.toNat) (hhi : a.toNat ≤ 3) :
    s.readPort a = Config.busyRead a s.time := by
  have ha := (hiddenWhileBusy_iff a).mpr ⟨hlo, hhi⟩
  simp [State.readPort, h, or_assoc, ha]

/-- Addresses 4 to 7 are none of the map's four (R29), and BUSY hides none of them. -/
theorem readPort_unmapped (s : State) {a : BitVec 3} (h : 4 ≤ a.toNat) : s.readPort a = 0 := by
  have hne : ∀ b : BitVec 3, b.toNat < 4 → a ≠ b := by
    rintro b hb rfl
    omega
  simp [State.readPort, State.readMap, hne]

theorem readPort_sameButSecrets {s t : State} (h : s.sameButSecrets t) (a : BitVec 3) :
    t.readPort a = s.readPort a := by
  obtain ⟨v, k0, k1, rfl⟩ := (sameButSecrets_iff s t).mp h
  rfl

/-- Settles O29: the map, address range by address range, and no row of it is V0..V3, K0 or K1. -/
theorem readPortFollowsMap : Obligations.ReadPortFollowsMap := by
  refine ⟨fun s => ⟨readPort_zero s, fun a => readPort_unmapped s, fun hidle => ?_,
    fun hbusy a => readPort_of_busy hbusy⟩, fun s t a h => readPort_sameButSecrets h a⟩
  simp [readPort_of_not_busy hidle, State.readMap]

/-- The read address of a driven cycle enters neither the edge nor the script: the step is the same (R30). -/
theorem step_cycle_rdAddr (s : State) (p : Pins) (rest : List HostAct) (a : BitVec 3) :
    step { s with host := .cycle { p with rdAddr := a } :: rest } = step { s with host := .cycle p :: rest } :=
  rfl

theorem step_of_idle {s : State} (h : s.edge = .idle) : step s = .next s.tick := by
  simp [step, h]

/-- With nothing in flight no read is a draw, so the moving draw index is not seen. -/
theorem readPort_tick {s : State} (h : s.inflight = none) (a : BitVec 3) : s.tick.readPort a = s.readPort a := by
  have hidle : s.busy = false := by simp [busy_eq, h]
  rw [readPort_of_not_busy hidle, readPort_of_not_busy (s := s.tick) hidle]
  rfl

/-- Settles O30: the port is a function of the state before the edge, and an idle edge moves only the environment. -/
theorem readsHaveNoSideEffect : Obligations.ReadsHaveNoSideEffect := by
  refine ⟨fun s p rest a => ⟨rfl, step_cycle_rdAddr s p rest a⟩, fun s h => ⟨s.tick, step_of_idle h, ?_⟩⟩
  obtain ⟨-, hnone, -⟩ := (edge_idle_iff s).mp h
  exact readPort_tick hnone

/-! ### Commands and the environment -/

/-- `s` with another host script, host index and draw index, the fields that are not the block's. -/
def State.withEnv (host : List HostAct) (cmdIndex time : Nat) (s : State) : State :=
  { s with host := host, cmdIndex := cmdIndex, time := time }

theorem withEnv_raise (h : List HostAct) (n k : Nat) (e : ErrorCause) (s : State) :
    (s.withEnv h n k).raise e = (s.raise e).withEnv h n k := by
  rw [raise_eq, raise_eq]
  rfl

/-- No command reads the environment (R25): what it does to the block is the same in any other one. -/
theorem effect_withEnv {i : Instr} {s t : State} (h : List HostAct) (n k : Nat) (e : Effect s i t) :
    Effect (s.withEnv h n k) i (t.withEnv h n k) := by
  cases e with
  | nop => exact .nop
  | ldk0 => exact .ldk0 _
  | ldk1 => exact .ldk1 _
  | initNoKey n hkey => exact withEnv_raise .. ▸ .initNoKey n hkey
  | initBadLength n hkey hmode => exact withEnv_raise .. ▸ .initBadLength n hkey hmode
  | initStarts n m hkey hmode => exact .initStarts n m hkey hmode
  | absorbOutOfPhase m hphase => exact withEnv_raise .. ▸ .absorbOutOfPhase m hphase
  | absorbCompresses m hphase => exact .absorbCompresses m hphase
  | finalOutOfPhase nb d hphase => exact withEnv_raise .. ▸ .finalOutOfPhase nb d hphase
  | finalFinishes nb d hphase => exact .finalFinishes nb d hphase
  | clrerr => exact .clrerr
  | clear => exact .clear

theorem execCommand_of_ok {c : Command} {i : Instr} (hd : decode c = .ok i) (s : State) :
    execCommand c s = exec i s := by
  simp [execCommand, hd]

theorem execCommand_of_error {c : Command} {k : IllegalKind} (hd : decode c = .error k) (s : State) :
    execCommand c s = .next (s.raise .illegalCommand) := by
  simp [execCommand, hd, illegalCommand]

/-- Every command answers a next state, and leaves the handshake and the environment alone. -/
theorem exists_execCommand (c : Command) (s : State) : ∃ t, execCommand c s = .next t ∧
    t.inflight = s.inflight ∧ t.host = s.host ∧ t.cmdIndex = s.cmdIndex ∧ t.time = s.time := by
  cases hd : decode c with
  | ok i =>
    obtain ⟨t, e⟩ := exists_effect i s
    exact ⟨t, (execCommand_of_ok hd s).trans (exec_of_effect e), effect_keeps_environment e⟩
  | error k => exact ⟨_, execCommand_of_error hd s, by simp⟩

theorem execCommand_withEnv {c : Command} {s t : State} (h : List HostAct) (n k : Nat)
    (hc : execCommand c s = .next t) : execCommand c (s.withEnv h n k) = .next (t.withEnv h n k) := by
  obtain ⟨i, hd, e⟩ | ⟨_, hd, rfl⟩ := complete_cases hc
  · exact (execCommand_of_ok hd _).trans (exec_of_effect (effect_withEnv h n k e))
  · rw [execCommand_of_error hd, withEnv_raise]

theorem runCommands_withEnv {cs : List Command} {s t : State} (h : List HostAct) (n k : Nat)
    (hrun : runCommands cs s = .next t) : runCommands cs (s.withEnv h n k) = .next (t.withEnv h n k) := by
  induction cs generalizing s with
  | nil => cases hrun; rfl
  | cons c cs ih =>
    obtain ⟨u, hu, -⟩ := exists_execCommand c s
    rw [runCommands_cons_of_next cs hu] at hrun
    rw [runCommands_cons_of_next cs (execCommand_withEnv h n k hu), ih hrun]

/-! ### From acceptance to completion -/

/-- The script does not begin with a driven cycle, so the host keeps rst_n at 1 and waits while BUSY = 1. -/
def State.hostWaits (s : State) : Prop := ∀ p, s.host.head? ≠ some (.cycle p)

theorem pins_rstN_of_hostWaits {s : State} (h : s.hostWaits) : s.pins.rstN = true := by
  unfold State.pins
  cases hs : s.host with
  | nil => rfl
  | cons a rest =>
    cases a with
    | send | wait => rfl
    | cycle p => exact absurd (by simp [hs]) (h p)

/-- A command on the pins is held until it is accepted (R117), and a WAIT ends only with BUSY = 0 (R41). -/
theorem hostNext_of_hostWaits {s : State} {f : InFlight} (h : s.hostWaits) (hf : s.inflight = some f) :
    s.hostNext = s.host := by
  unfold State.hostNext
  cases hs : s.host with
  | nil => rfl
  | cons a rest =>
    cases a with
    | send c => simp [edge_accept_iff, hf]
    | wait => simp [busy_eq, hf]
    | cycle p => exact absurd (by simp [hs]) (h p)

/-- A run goes on from where its first steps end. -/
theorem run_add {m : Nat} (n : Nat) {s t : State} (h : Host.Core.run Sys2Proof.core m s = .next t) :
    Host.Core.run Sys2Proof.core (m + n) s = Host.Core.run Sys2Proof.core n t := by
  induction m generalizing s with
  | zero =>
    cases h
    rw [Nat.zero_add]
  | succ m ih =>
    cases hs : step s with
    | next u =>
      rw [run_succ_of_next hs] at h
      rw [Nat.add_right_comm, run_succ_of_next hs, ih h]
    | fault r => cases r
    | refused r => simp [Host.Core.run, Sys2Proof.core, hs] at h

/-- With `n + 1` busy cycles left and a host that waits, the command completes `n + 1` edges on, with exactly its own
effect (R118). -/
theorem run_inflight {c : Command} {n : Nat} {s : State} (hf : s.inflight = some ⟨c, n + 1⟩) (hw : s.hostWaits) :
    Host.Core.run Sys2Proof.core (n + 1) s =
      execCommand c (s.retire.withEnv s.host s.cmdIndex (s.time + (n + 1))) := by
  induction n generalizing s with
  | zero =>
    have hedge : s.edge = .complete c :=
      (edge_complete_iff s c).mpr ⟨pins_rstN_of_hostWaits hw, _, hf, le_rfl, rfl⟩
    have hretire : s.tick.retire = s.retire.withEnv s.host s.cmdIndex (s.time + 1) := by
      rw [← hostNext_of_hostWaits hw hf]
      rfl
    obtain ⟨t, ht, -⟩ := exists_execCommand c s.tick.retire
    rw [run_succ_of_next ((step_of_complete hedge).trans ht), ← hretire, ht]
    rfl
  | succ n ih =>
    have hedge : s.edge = .busy ⟨c, n + 2⟩ :=
      (edge_busy_iff s _).mpr ⟨pins_rstN_of_hostWaits hw, hf, by simp⟩
    have hstep : step s = .next (s.tick.countDown ⟨c, n + 2⟩) := by simp [step, hedge]
    have hhost : (s.tick.countDown ⟨c, n + 2⟩).host = s.host := hostNext_of_hostWaits hw hf
    have htime : s.time + 1 + (n + 1) = s.time + (n + 1 + 1) := by omega
    rw [run_succ_of_next hstep, ih rfl (by rwa [State.hostWaits, hhost]), hhost, countDown_time, tick_time, htime]
    rfl

/-- A block with nothing in flight accepts the command that heads the host's script. -/
theorem step_of_send {c : Command} {rest : List HostAct} {s : State} (hf : s.inflight = none)
    (hhost : s.host = .send c :: rest) :
    step s = .next ((s.withEnv rest s.cmdIndex (s.time + 1)).accept c s.time) := by
  have hedge : s.edge = .accept c := by simp [edge_accept_iff, State.pins, hhost, HostAct.pins, hf]
  have hnext : s.hostNext = rest := by simp [State.hostNext, hhost, hedge]
  simp [step, hedge, State.tick, hnext, State.withEnv]

theorem retire_of_not_inflight {s : State} (hf : s.inflight = none) : s.retire = s := by
  rw [State.retire, ← hf]

/-- One command presented to a block with nothing in flight, from its acceptance to its completion: it has the effect of
its rule, the host's index moves on by one, and the host's script by that command (R40, R117, R118). -/
theorem exists_run_of_send {c : Command} {rest : List HostAct} {s t : State} (hf : s.inflight = none)
    (hhost : s.host = .send c :: rest) (hrest : ∀ p, rest.head? ≠ some (.cycle p)) (hc : execCommand c s = .next t) :
    ∃ n k, Host.Core.run Sys2Proof.core n s = .next (t.withEnv rest (s.cmdIndex + 1) k) := by
  have haccept := run_succ_of_next (n := Config.latency (opField c.word) s.time) (step_of_send hf hhost)
  have hlatency := run_inflight (s := (s.withEnv rest s.cmdIndex (s.time + 1)).accept c s.time) rfl hrest
  rw [← retire_of_not_inflight hf] at hc
  have heffect := execCommand_withEnv rest (s.cmdIndex + 1) (s.time + 1 + Config.latency (opField c.word) s.time) hc
  exact ⟨_, _, haccept.trans (hlatency.trans heffect)⟩

/-- Settles O38, by induction on the list: the first command runs from acceptance to completion, and what the others do
does not depend on the script, the index or the time it leaves. -/
theorem commandsRunInOrder : Obligations.CommandsRunInOrder := by
  intro cs
  induction cs with
  | nil =>
    intro s hf hhost
    exact ⟨0, s, rfl, by simp [State.runEnded, hhost, busy_eq, hf], rfl, rfl⟩
  | cons c cs ih =>
    intro s hf hhost
    obtain ⟨t, ht, htf, hthost, htindex, httime⟩ := exists_execCommand c s
    have hsends : ∀ p, (cs.map HostAct.send).head? ≠ some (.cycle p) := by cases cs <;> simp
    obtain ⟨m, k, hfirst⟩ := exists_run_of_send hf hhost hsends ht
    have hidle : (t.withEnv (cs.map .send) (s.cmdIndex + 1) k).inflight = none := htf.trans hf
    obtain ⟨n, u, hothers, hended, hindex, hblock⟩ := ih _ hidle rfl
    refine ⟨m + n, u, (run_add n hfirst).trans hothers, hended, ?_, ?_⟩
    · simp only [hindex, State.withEnv, List.length_cons]
      omega
    · rw [runCommands_cons_of_next cs ht, ← hthost, ← htindex, ← httime]
      have hback := runCommands_withEnv t.host t.cmdIndex t.time hblock
      exact hback

end Sys2Proof.Machine

/-! PROOFS. The bytes a host presents as one message (20_memory.md R31 to R37): the commands it sends, the blocks and
the tail as a byte string, and the digest as the source's siphash of it. -/

namespace Sys2Proof.Machine

/-! ### Encoded commands -/

theorem decode_encode {i : Instr} (h : i.wellFormed = true) : decode (encode i) = .ok i := by
  cases i with
  | nop | clrerr | clear => rfl
  | ldk0 | ldk1 | absorb => rw [decode_eq]; simp [encode]
  | init n =>
    have hn : n < 256 := by simpa [Instr.wellFormed, outlenFits] using h
    rw [decode_eq, encode_init_toNat hn]
    have hrow : (3 + n * 2 ^ 16) % 2 ^ 16 = 3 ∧ (3 + n * 2 ^ 16) / 2 ^ 24 = 0 := by omega
    have hfield : (3 + n * 2 ^ 16) / 2 ^ 16 % 256 = n := by omega
    rw [if_neg (by omega), if_neg (by omega), if_neg (by omega), if_pos hrow, hfield]
  | final n d =>
    have hn : n < 8 := by simpa [Instr.wellFormed, nbFits] using h
    rw [decode_eq, encode_final_toNat d hn]
    have hrow : (5 + n * 2 ^ 8) % 2 ^ 8 = 5 ∧ (5 + n * 2 ^ 8) / 2 ^ 11 = 0 := by omega
    have hfield : (5 + n * 2 ^ 8) / 2 ^ 8 % 8 = n := by omega
    rw [if_neg (by omega), if_neg (by omega), if_neg (by omega), if_neg (by omega), if_neg (by omega), if_pos hrow, hfield]
    rfl

theorem runCommands_encode_cons {i : Instr} {s t : State} (is : List Instr) (hwf : i.wellFormed = true)
    (e : Effect s i t) : runCommands ((i :: is).map encode) s = runCommands (is.map encode) t :=
  runCommands_cons_of_next _ ((execCommand_of_ok (decode_encode hwf) s).trans (exec_of_effect e))

/-! ### One message as commands -/

theorem exists_modeOf_eq_some {outlen : Nat} (h : outlen = 8 ∨ outlen = 16) : ∃ mode, modeOf outlen = some mode := by
  obtain rfl | rfl := h
  · exact ⟨.bytes8, rfl⟩
  · exact ⟨.bytes16, rfl⟩

/-- The state after a successful ABSORB of each block, in order. -/
def State.absorbBlocks (blocks : List U64) (s : State) : State := blocks.foldl (fun u m => u.absorbBlock m) s

theorem absorbBlocks_cons (m : U64) (blocks : List U64) (s : State) :
    s.absorbBlocks (m :: blocks) = (s.absorbBlock m).absorbBlocks blocks := rfl

/-- ABSORBs write V0..V3, the blocks compressed in order, and LEN, 8 for each (R75). -/
theorem absorbBlocks_eq (blocks : List U64) (s : State) :
    s.absorbBlocks blocks =
      { s.setVec (blocks.foldl sourceWord s.vec) with len := s.len + BitVec.ofNat 64 (8 * blocks.length) } := by
  induction blocks generalizing s with
  | nil => simp [State.absorbBlocks]
  | cons m blocks ih =>
    have hlen : (s.absorbBlock m).len + BitVec.ofNat 64 (8 * blocks.length)
        = s.len + BitVec.ofNat 64 (8 * (blocks.length + 1)) := by
      simp only [absorbBlock_len, add64, Config.blockBytes, BitVec.add_assoc, ← BitVec.ofNat_add]
      congr 2
      omega
    rw [absorbBlocks_cons, ih, hlen]
    rfl

theorem runCommands_absorbs (blocks : List U64) (is : List Instr) {s : State} (hphase : s.phase = .absorb) :
    runCommands ((blocks.map Instr.absorb ++ is).map encode) s =
      runCommands (is.map encode) (s.absorbBlocks blocks) := by
  induction blocks generalizing s with
  | nil => rfl
  | cons m blocks ih => exact (runCommands_encode_cons _ rfl (.absorbCompresses m hphase)).trans (ih hphase)

/-- INIT, ABSORBs and FINAL with the key loaded all succeed, and their writes follow one another. -/
theorem runCommands_message {s : State} {outlen nb : Nat} {mode : Mode} (blocks : List U64) (d : U64)
    (hkey : s.keyv = 0b11#2) (hmode : modeOf outlen = some mode) (hnb : nb < 8) :
    runCommands ((Instr.init outlen :: blocks.map Instr.absorb ++ [Instr.final nb d]).map encode) s =
      .next (((s.startMessage mode).absorbBlocks blocks).finishMessage nb d) := by
  have houtlen : (Instr.init outlen).wellFormed = true := by
    obtain rfl | rfl := outlen_of_modeOf_eq_some hmode <;> rfl
  have hfinal : (Instr.final nb d).wellFormed = true := by simpa [Instr.wellFormed, nbFits] using hnb
  have hphase : ((s.startMessage mode).absorbBlocks blocks).phase = .absorb := by rw [absorbBlocks_eq]; rfl
  calc _ = runCommands ((blocks.map Instr.absorb ++ [Instr.final nb d]).map encode) (s.startMessage mode) :=
        runCommands_encode_cons _ houtlen (.initStarts outlen mode hkey hmode)
    _ = runCommands ([Instr.final nb d].map encode) ((s.startMessage mode).absorbBlocks blocks) :=
        runCommands_absorbs blocks _ rfl
    _ = _ := runCommands_encode_cons [] hfinal (.finalFinishes nb d hphase)

/-! ### Presented blocks as a byte string -/

theorem byteOf_le64At (msg : List Byte) (o : Nat) {i : Nat} (hi : i < 8) :
    byteOf (le64At msg o) i = msg.getD (o + i) 0 := by
  rw [le64At, byteOf_le64 _ _ _ _ _ _ _ _ hi]
  interval_cases i <;> rfl

theorem length_le64Bytes (x : U64) : (le64Bytes x).length = 8 := rfl

theorem le64At_le64Bytes_append (x : U64) (msg : List Byte) : le64At (le64Bytes x ++ msg) 0 = x :=
  le64_byteOf x

theorem le64At_append (pre msg : List Byte) (o : Nat) : le64At (pre ++ msg) (pre.length + o) = le64At msg o := by
  refine eq_of_byteOf_eq fun i hi => ?_
  simp only [byteOf_le64At _ _ hi, List.getD_eq_getElem?_getD, Nat.add_assoc,
    List.getElem?_append_right (Nat.le_add_right _ _), Nat.add_sub_cancel_left]

/-- The tail mask keeps the low `nb` bytes (R80). -/
theorem byteOf_and_tailMask (d : U64) (nb : Nat) {i : Nat} (hi : i < 8) :
    byteOf (d &&& tailMask nb) i = if i < nb then byteOf d i else 0 := by
  refine BitVec.eq_of_getLsbD_eq fun j hj => ?_
  have hmask : (tailMask nb).getLsbD (8 * i + j) = decide (i < nb) := by
    have hk : 8 * i + j < 64 := by omega
    have hin : 8 * i + j < 8 * nb ↔ i < nb := by omega
    simp only [tailMask, BitVec.getLsbD_ofNat, Nat.testBit_two_pow_sub_one, hk, hin, decide_true, Bool.true_and]
  rw [getLsbD_byteOf, BitVec.getLsbD_and, hmask]
  by_cases h : i < nb <;> simp [h, getLsbD_byteOf]

theorem getD_take_le64Bytes (d : U64) (nb : Nat) {i : Nat} (hi : i < 8) :
    ((le64Bytes d).take nb).getD i 0 = if i < nb then byteOf d i else 0 := by
  have hbyte : (le64Bytes d)[i]? = some (byteOf d i) := by interval_cases i <;> rfl
  rw [List.getD_eq_getElem?_getD, List.getElem?_take, hbyte]
  split_ifs <;> rfl

/-- The low `nb` bytes of DATA, zero-padded to a word, are DATA under the tail mask (R34, R80). -/
theorem le64At_take_le64Bytes (d : U64) (nb : Nat) : le64At ((le64Bytes d).take nb) 0 = d &&& tailMask nb := by
  refine eq_of_byteOf_eq fun i hi => ?_
  rw [byteOf_le64At _ _ hi, byteOf_and_tailMask _ _ hi, Nat.zero_add, getD_take_le64Bytes _ _ hi]

/-- The bytes a host presents with ABSORBs of `blocks` and a FINAL with `nb` and `d` (R37). -/
def presented (blocks : List U64) (nb : Nat) (d : U64) : List Byte :=
  blocks.flatMap le64Bytes ++ (le64Bytes d).take nb

theorem presented_cons (x : U64) (blocks : List U64) (nb : Nat) (d : U64) :
    presented (x :: blocks) nb d = le64Bytes x ++ presented blocks nb d := by
  simp [presented]

section Presented

variable (blocks : List U64) {nb : Nat} (d : U64)

theorem length_blocks : (blocks.flatMap le64Bytes).length = 8 * blocks.length := by
  simp [length_le64Bytes, Nat.mul_comm]

variable (hnb : nb < 8)
include hnb

theorem length_presented : (presented blocks nb d).length = 8 * blocks.length + nb := by
  rw [presented, List.length_append, length_blocks, List.length_take, length_le64Bytes]
  omega

theorem length_presented_div : (presented blocks nb d).length / Config.blockBytes = blocks.length := by
  rw [length_presented blocks d hnb, Config.blockBytes]
  omega

theorem tailLength_presented : tailLength (presented blocks nb d) = nb := by
  rw [tailLength, length_presented blocks d hnb, Config.blockBytes]
  omega

/-- The message's tail word is read after its blocks, where the low bytes of DATA stand. -/
theorem tailWord_presented : tailWord (presented blocks nb d) = d &&& tailMask nb := by
  rw [tailWord, length_presented_div blocks d hnb, Config.blockBytes, ← length_blocks, ← le64At_take_le64Bytes]
  exact le64At_append _ _ 0

/-- The message's full blocks are read back one by one: past the first block, every read is one of the rest. -/
theorem messageBlocks_presented : messageBlocks (presented blocks nb d) = blocks := by
  rw [messageBlocks, length_presented_div blocks d hnb]
  induction blocks with
  | nil => rfl
  | cons x blocks ih =>
    have hshift (j : Nat) : le64At (le64Bytes x ++ presented blocks nb d) (Config.blockBytes * (j + 1)) =
        le64At (presented blocks nb d) (Config.blockBytes * j) := by
      rw [Config.blockBytes, Nat.mul_succ, Nat.add_comm]
      exact le64At_append (le64Bytes x) _ _
    simp only [presented_cons, List.length_cons, List.range_succ_eq_map, List.map_cons, List.map_map,
      Function.comp_def, Nat.succ_eq_add_one, hshift, ih, Nat.mul_zero, le64At_le64Bytes_append]

end Presented

/-! ### LEN and the digest after a message -/

theorem length_messageBlocks (msg : List Byte) : (messageBlocks msg).length = msg.length / Config.blockBytes := by
  simp [messageBlocks]

/-- The length tag holds the low byte of the total length (R82); the wrap at 2^64 does not reach it. -/
theorem lengthTag_ofNat (n : Nat) : lengthTag (BitVec.ofNat 64 n) = BitVec.ofNat 64 (n % 256 * 2 ^ 56) := by
  refine BitVec.eq_of_toNat_eq ?_
  simp only [lengthTag, BitVec.toNat_shiftLeft, BitVec.toNat_setWidth, BitVec.extractLsb'_toNat, BitVec.toNat_ofNat,
    Nat.shiftRight_zero, Nat.shiftLeft_eq]
  omega

section Message

variable (s : State) (mode : Mode) (msg : List Byte) (d : U64)

/-- The block after INIT, the ABSORBs of the full blocks of `msg`, and FINAL with its tail under any DATA above it. -/
def State.afterMessage : State :=
  ((s.startMessage mode).absorbBlocks (messageBlocks msg)).finishMessage (tailLength msg) d

/-- LEN counts the bytes of the whole message (R81): 8 for each full block, and the tail. -/
theorem totalLength_message :
    totalLength ((s.startMessage mode).absorbBlocks (messageBlocks msg)).len (tailLength msg) =
      BitVec.ofNat 64 msg.length := by
  rw [absorbBlocks_eq, totalLength, add64, zextNb, startMessage_len, length_messageBlocks, tailLength]
  simp only [BitVec.ofNat_eq_ofNat, ← BitVec.ofNat_add, Nat.zero_add]
  exact congrArg _ (Nat.div_add_mod _ _)

theorem afterMessage_len : (s.afterMessage mode msg d).len = BitVec.ofNat 64 msg.length :=
  totalLength_message s mode msg

variable {s mode msg d} {outlen : Nat} {key : List Byte}

/-- The block's initial words, message words, tail block and rounds are the source's, in both output lengths (R88). -/
theorem afterMessage_digest (hmode : modeOf outlen = some mode) (hk0 : le64At key 0 = s.k0)
    (hk1 : le64At key 8 = s.k1) (hd : d &&& tailMask (tailLength msg) = tailWord msg) :
    (s.afterMessage mode msg d).digest = siphash msg key outlen := by
  have hblock : tailBlock (totalLength ((s.startMessage mode).absorbBlocks (messageBlocks msg)).len (tailLength msg))
      (tailLength msg) d = BitVec.ofNat 64 (msg.length % 256 * 2 ^ 56) ||| tailWord msg := by
    rw [totalLength_message, tailBlock, lengthTag_ofNat, hd]
  have hvec : ((s.startMessage mode).absorbBlocks (messageBlocks msg)).vec =
      (messageBlocks msg).foldl sourceWord (initVec (le64At key 0) (le64At key 8) mode) := by
    rw [absorbBlocks_eq, hk0, hk1]
    rfl
  have hm : ((s.startMessage mode).absorbBlocks (messageBlocks msg)).mode = mode := by
    rw [absorbBlocks_eq]
    rfl
  unfold State.digest State.afterMessage
  rw [finishMessage_mode, finishMessage_h0, finishMessage_h1, hblock, hvec, hm]
  obtain rfl | rfl := outlen_of_modeOf_eq_some hmode
  · cases hmode
    rfl
  · cases hmode
    rfl

end Message

/-- Settles O27: the presented bytes are a message whose full blocks are the presented blocks and whose tail is the low
`nb` bytes of DATA, so what the commands leave is that message's digest and length. -/
theorem presentedBytesAreHashed : Obligations.PresentedBytesAreHashed := by
  intro s blocks nb outlen d hkey houtlen hnb
  obtain ⟨mode, hmode⟩ := exists_modeOf_eq_some houtlen
  have hblocks := messageBlocks_presented blocks d hnb
  have htail := tailLength_presented blocks d hnb
  have hk0 : le64At (le64Bytes s.k0 ++ le64Bytes s.k1) 0 = s.k0 := le64At_le64Bytes_append _ _
  have hk1 : le64At (le64Bytes s.k0 ++ le64Bytes s.k1) 8 = s.k1 :=
    (le64At_append (le64Bytes s.k0) _ 0).trans (le64_byteOf s.k1)
  refine ⟨s.afterMessage mode (presented blocks nb d) d, ?_, afterMessage_digest hmode hk0 hk1 ?_, rfl, ?_⟩
  · rw [State.afterMessage, hblocks, htail]
    exact runCommands_message blocks d hkey hmode hnb
  · rw [htail, tailWord_presented blocks d hnb]
  · rw [afterMessage_len, length_presented blocks d hnb]

end Sys2Proof.Machine

/-! PROOFS. The encoding of a command (30_encoding.md R50 to R55): a command's word as a number and its DATA operand,
exactly which words decode to it, and which decode to none. -/

namespace Sys2Proof

/-- The word of a command as a number: its opcode and, above it, its one field (R50, R55). -/
def Instr.wordNat : Instr → Nat
  | .nop => 0
  | .ldk0 _ => 1
  | .ldk1 _ => 2
  | .init outlen => 3 + outlen * 2 ^ 16
  | .absorb _ => 4
  | .final nb _ => 5 + nb * 2 ^ 8
  | .clrerr => 6
  | .clear => 7

/-- The command with another DATA operand, when it has one (R49). -/
def Instr.withData (d : U64) : Instr → Instr
  | .ldk0 _ => .ldk0 d
  | .ldk1 _ => .ldk1 d
  | .absorb _ => .absorb d
  | .final nb _ => .final nb d
  | i => i

theorem encode_word_toNat {i : Instr} (h : i.wellFormed = true) : (encode i).word.toNat = i.wordNat := by
  cases i with
  | nop | ldk0 | ldk1 | absorb | clrerr | clear => rfl
  | init n => exact encode_init_toNat (by simpa [Instr.wellFormed, outlenFits] using h)
  | final nb d => exact encode_final_toNat d (by simpa [Instr.wellFormed, nbFits] using h)

theorem encode_word_eq_iff {i : Instr} (h : i.wellFormed = true) (w : CmdWord) :
    (encode i).word = w ↔ w.toNat = i.wordNat := by
  rw [← encode_word_toNat h, eq_comm, BitVec.toNat_inj]

/-- DATA never selects a command (R43): it is only its operand. -/
theorem decode_withData (w : CmdWord) (d d' : U64) : decode ⟨w, d'⟩ = (decode ⟨w, d⟩).map (Instr.withData d') := by
  simp only [decode_eq]
  split_ifs <;> rfl

theorem decode_of_wordNat {c : Command} {i : Instr} (hwf : i.wellFormed = true) (hw : c.word.toNat = i.wordNat) :
    decode c = .ok (i.withData c.data) := by
  have hword : (encode i).word = c.word := (encode_word_eq_iff hwf _).mpr hw
  calc decode c = decode ⟨(encode i).word, c.data⟩ := by rw [hword]
    _ = (decode (encode i)).map (Instr.withData c.data) := decode_withData _ _ _
    _ = .ok (i.withData c.data) := by rw [Machine.decode_encode hwf]; rfl

/-- What the decoder answers, row by row (R50): the fields of the word are those of the command, and no other bit is
set. -/
theorem of_decode_eq_ok {c : Command} {i : Instr} (h : decode c = .ok i) :
    i.wellFormed = true ∧ c.word.toNat = i.wordNat ∧ i.withData c.data = i := by
  rw [decode_eq] at h
  split_ifs at h with hnop hldk0 hldk1 hinit habsorb hfinal hclrerr hclear <;> cases h
  · exact ⟨rfl, hnop, rfl⟩
  · exact ⟨rfl, hldk0, rfl⟩
  · exact ⟨rfl, hldk1, rfl⟩
  · obtain ⟨hlow, hhigh⟩ := hinit
    refine ⟨?_, ?_, rfl⟩
    · simpa [Instr.wellFormed, outlenFits] using Nat.mod_lt _ (by decide)
    · simp only [Instr.wordNat]
      omega
  · exact ⟨rfl, habsorb, rfl⟩
  · obtain ⟨hlow, hhigh⟩ := hfinal
    refine ⟨?_, ?_, rfl⟩
    · simpa [Instr.wellFormed, nbFits] using Nat.mod_lt _ (by decide)
    · simp only [Instr.wordNat]
      omega
  · exact ⟨rfl, hclrerr, rfl⟩
  · exact ⟨rfl, hclear, rfl⟩

theorem decode_eq_ok_iff (c : Command) (i : Instr) :
    decode c = .ok i ↔ i.wellFormed = true ∧ c.word.toNat = i.wordNat ∧ i.withData c.data = i := by
  refine ⟨of_decode_eq_ok, fun ⟨hwf, hw, hd⟩ => ?_⟩
  rw [decode_of_wordNat hwf hw, hd]

/-- Settles O1: the decoder inverts the encoder, and a decoded word is the number of a well-formed command's word. -/
theorem decodeAndEncodeAgree : Obligations.DecodeAndEncodeAgree := by
  refine ⟨fun i => Machine.decode_encode, fun c i h => ?_⟩
  obtain ⟨hwf, hw, -⟩ := of_decode_eq_ok h
  exact ⟨hwf, (encode_word_eq_iff hwf _).mpr hw⟩

/-- Two rows that a word hits agree on the bits that both pin. -/
theorem OpRow.pat_and_mask_of_hits {a b : OpRow} {w : CmdWord} (ha : a.hits w = true) (hb : b.hits w = true) :
    a.pat &&& b.mask = b.pat &&& a.mask := by
  simp only [OpRow.hits, beq_iff_eq] at ha hb
  rw [← ha, ← hb, BitVec.and_assoc, BitVec.and_assoc, BitVec.and_comm a.mask]

/-- The rows of the opcode map exclude each other: any two differ in a bit that both pin. -/
theorem opRows_pairwise_disjoint :
    opRows.Pairwise (fun a b => ∀ w, ¬ (a.hits w = true ∧ b.hits w = true)) := by
  have hdiffer : opRows.Pairwise (fun a b => a.pat &&& b.mask ≠ b.pat &&& a.mask) := by decide
  exact hdiffer.imp fun hab w ⟨ha, hb⟩ => hab (OpRow.pat_and_mask_of_hits ha hb)

/-- Settles O2: `decode_eq_ok_iff`, read off for each command. -/
theorem decodeReadsTheOpcodeMap : Obligations.DecodeReadsTheOpcodeMap := by
  refine ⟨fun c i => ?_, opRows_pairwise_disjoint⟩
  rw [decode_eq_ok_iff]
  cases i with
  | nop | clrerr | clear => simp [Instr.wellFormed, Instr.wordNat, Instr.withData]
  | ldk0 | ldk1 | absorb => simp [Instr.wellFormed, Instr.wordNat, Instr.withData, eq_comm]
  | init n => simp [Instr.wellFormed, Instr.wordNat, Instr.withData, outlenFits]
  | final nb d => simp [Instr.wellFormed, Instr.wordNat, Instr.withData, nbFits, eq_comm]

/-- R52's three kinds on the word as a number: the opcode is unassigned, a reserved field is set, or a field is set that
the opcode does not use. -/
theorem illegalWord_iff (w : CmdWord) :
    Machine.illegalWord w = true ↔
      8 ≤ w.toNat % 256 ∨ (w.toNat % 256 < 8 ∧ (w.toNat / 2 ^ 11 % 32 ≠ 0 ∨ w.toNat / 2 ^ 24 ≠ 0)) ∨
        (w.toNat % 256 < 8 ∧
          ((w.toNat / 2 ^ 8 % 8 ≠ 0 ∧ w.toNat % 256 ≠ 5) ∨ (w.toNat / 2 ^ 16 % 256 ≠ 0 ∧ w.toNat % 256 ≠ 3))) := by
  simp only [Machine.illegalWord, Bool.or_eq_true, Bool.and_eq_true, decide_eq_true_eq]
  omega

/-- No row of the map is of one of R52's kinds, and a word that is in no row is. -/
theorem exists_decode_eq_error_iff (c : Command) :
    (∃ k, decode c = .error k) ↔ Machine.illegalWord c.word = true := by
  rw [illegalWord_iff, decode_eq]
  split_ifs <;> simp only [exists_false, false_iff, Except.error.injEq, exists_eq', true_iff] <;> omega

/-- Settles O3: the three kinds as numbers, and an illegal command raises IllegalCommand. -/
theorem illegalWordsAreTheThreeKinds : Obligations.IllegalWordsAreTheThreeKinds := by
  refine ⟨fun c => (exists_decode_eq_error_iff c).trans (illegalWord_iff c.word), fun c k s hd => ?_⟩
  rw [Machine.execCommand_of_error hd, Machine.recorded_eq_raise]

/-- Settles O4: each word is a closed term, and the model evaluates it. -/
theorem sampleWordsDecode : Obligations.SampleWordsDecode := by
  unfold Obligations.SampleWordsDecode
  decide

end Sys2Proof

/-! PROOFS. The assembler's pseudo-commands (30_encoding.md R56): the script that LDKEY, HASH and WAIT stand for, and its
run, from the first acceptance to the end of the wait. -/

namespace Sys2Proof.Machine

/-! ### The script -/

/-- The three lines are a list of commands and a wait at its end. -/
theorem assemble_ldkey_hash_wait {key msg : List Byte} {outlen : Nat} (hkey : key.length = 16)
    (houtlen : outlen = 8 ∨ outlen = 16) :
    assemble [.ldkey key, .hash outlen msg, .wait] =
      some (((keyCommands key ++ hashCommands outlen msg).map encode).map .send ++ [.wait]) := by
  have hfits : outlen < 256 := by omega
  simp [assemble, assembleLine, AsmLine.wellFormed, AsmLine.commands, outlenFits, hkey, hfits]

/-! ### The commands of the script -/

/-- The tail word holds no byte past the message's end (R34, R56). -/
theorem tailWord_and_tailMask (msg : List Byte) : tailWord msg &&& tailMask (tailLength msg) = tailWord msg := by
  refine eq_of_byteOf_eq fun i hi => ?_
  rw [byteOf_and_tailMask _ _ hi]
  split_ifs with hin
  · rfl
  · have hpast : msg.length ≤ Config.blockBytes * (msg.length / Config.blockBytes) + i := by
      simp only [tailLength, Config.blockBytes] at hin ⊢
      omega
    rw [tailWord, byteOf_le64At _ _ hi, List.getD_eq_default _ _ hpast]

/-- LDK0 and LDK1 with the two halves of a key (R32). -/
def State.loadKey (key : List Byte) (s : State) : State :=
  { s with k0 := le64At key 0, k1 := le64At key 8, keyv := 0b11#2 }

theorem setKeyv1_setKeyv0 (keyv : BitVec 2) : setKeyv1 (setKeyv0 keyv) = 0b11#2 := by
  simp only [setKeyv1, setKeyv0, BitVec.or_assoc]
  exact BitVec.or_allOnes

theorem runCommands_keyCommands (key : List Byte) (is : List Instr) (s : State) :
    runCommands ((keyCommands key ++ is).map encode) s = runCommands (is.map encode) (s.loadKey key) := by
  rw [State.loadKey, ← setKeyv1_setKeyv0 s.keyv]
  exact (runCommands_encode_cons _ rfl (.ldk0 _)).trans (runCommands_encode_cons _ rfl (.ldk1 _))

/-- The key load and the message all succeed, from any state (R88). -/
theorem runCommands_keyCommands_hashCommands (key msg : List Byte) {outlen : Nat} {mode : Mode} (s : State)
    (hmode : modeOf outlen = some mode) :
    runCommands ((keyCommands key ++ hashCommands outlen msg).map encode) s =
      .next ((s.loadKey key).afterMessage mode msg (tailWord msg)) :=
  (runCommands_keyCommands key _ s).trans
    (runCommands_message _ _ rfl hmode (Nat.mod_lt _ (by decide)))

/-- A whole message leaves ERR and the command in flight as they were. -/
theorem afterMessage_frame (s : State) (mode : Mode) (msg : List Byte) (d : U64) :
    (s.afterMessage mode msg d).err = s.err ∧ (s.afterMessage mode msg d).inflight = s.inflight := by
  simp [State.afterMessage, absorbBlocks_eq]

/-! ### The run of the script -/

/-- A list of presented commands runs to its end, whatever follows it in the script but a driven cycle: the effects
are those of the commands in order (R40, R117). -/
theorem exists_run_of_sends {cs : List Command} {rest : List HostAct} {s t : State} (hf : s.inflight = none)
    (hhost : s.host = cs.map .send ++ rest) (hrest : ∀ p, rest.head? ≠ some (.cycle p))
    (hrun : runCommands cs s = .next t) :
    ∃ n k, Host.Core.run Sys2Proof.core n s = .next (t.withEnv rest (s.cmdIndex + cs.length) k) := by
  induction cs generalizing s t with
  | nil =>
    cases hrun
    exact ⟨0, s.time, by rw [← show s.host = rest from hhost]; rfl⟩
  | cons c cs ih =>
    obtain ⟨u, hu, huf, -⟩ := exists_execCommand c s
    have hhead : ∀ p, (cs.map HostAct.send ++ rest).head? ≠ some (.cycle p) := by
      cases cs with
      | nil => exact hrest
      | cons => simp
    obtain ⟨m, k, hfirst⟩ := exists_run_of_send hf hhost hhead hu
    rw [runCommands_cons_of_next cs hu] at hrun
    have hothers := runCommands_withEnv (cs.map .send ++ rest) (s.cmdIndex + 1) k hrun
    have hidle : (u.withEnv (cs.map .send ++ rest) (s.cmdIndex + 1) k).inflight = none := huf.trans hf
    obtain ⟨n, k', hlast⟩ := ih hidle rfl hothers
    have hindex : s.cmdIndex + 1 + cs.length = s.cmdIndex + (c :: cs).length := by
      rw [List.length_cons]
      omega
    exact ⟨m + n, k', hindex ▸ (run_add n hfirst).trans hlast⟩

/-- With nothing in flight a WAIT ends at the next edge, and nothing else happens there (R41, R56). -/
theorem step_of_wait {s : State} {rest : List HostAct} (hf : s.inflight = none) (hhost : s.host = .wait :: rest) :
    step s = .next (s.withEnv rest s.cmdIndex (s.time + 1)) := by
  have hedge : s.edge = .idle := by simp [edge_idle_iff, State.pins, hhost, HostAct.pins, Pins.idle, hf]
  have hnext : s.hostNext = rest := by simp [State.hostNext, hhost, busy_eq, hf]
  rw [step_of_idle hedge, State.tick, hnext]
  rfl

/-- Commands and a WAIT after them, presented to a block with nothing in flight, run to the end of the script. -/
theorem exists_run_of_sends_wait {cs : List Command} {s t : State} (hf : s.inflight = none)
    (hhost : s.host = cs.map .send ++ [.wait]) (hrun : runCommands cs s = .next t) (htf : t.inflight = none) :
    ∃ n k, Host.Core.run Sys2Proof.core n s = .next (t.withEnv [] (s.cmdIndex + cs.length) k) := by
  obtain ⟨n, k, hsends⟩ := exists_run_of_sends hf hhost (by simp) hrun
  have hwait := run_succ_of_next (n := 0)
    (step_of_wait (s := t.withEnv [.wait] (s.cmdIndex + cs.length) k) htf rfl)
  exact ⟨n + 1, k + 1, (run_add 1 hsends).trans hwait⟩

theorem busy_withEnv (s : State) (h : List HostAct) (n k : Nat) : (s.withEnv h n k).busy = s.busy := rfl

/-- The script of LDKEY, HASH and WAIT, presented to a block with nothing in flight: the commands leave it with the digest
of the whole message, and the wait leaves it so. -/
theorem exists_run_of_keyed_hash {s : State} {key msg : List Byte} {outlen : Nat} {mode : Mode}
    (hf : s.inflight = none) (hmode : modeOf outlen = some mode)
    (hhost : s.host = ((keyCommands key ++ hashCommands outlen msg).map encode).map .send ++ [.wait]) :
    ∃ (n : Nat) (u : State), Host.Core.run Sys2Proof.core n s = .next u ∧
      u.runEnded = true ∧ u.digestValid = true ∧ u.digest = siphash msg key outlen ∧ u.err = s.err := by
  obtain ⟨herr, hinflight⟩ := afterMessage_frame (s.loadKey key) mode msg (tailWord msg)
  have hidle : ((s.loadKey key).afterMessage mode msg (tailWord msg)).inflight = none := hinflight.trans hf
  have hbusy : ((s.loadKey key).afterMessage mode msg (tailWord msg)).busy = false := by simp [busy_eq, hidle]
  obtain ⟨n, k, hrun⟩ :=
    exists_run_of_sends_wait hf hhost (runCommands_keyCommands_hashCommands key msg s hmode) hidle
  refine ⟨n, _, hrun, ?_, ?_, ?_, herr⟩
  · rw [State.runEnded, busy_withEnv, hbusy]
    rfl
  · rw [State.digestValid, busy_withEnv, hbusy]
    rfl
  · exact afterMessage_digest hmode rfl rfl (tailWord_and_tailMask msg)

/-- Settles O39: the lines assemble to the key load, the message and a wait, and that script runs to a valid digest. -/
theorem assembledProgramHashes : Obligations.AssembledProgramHashes := by
  intro s key msg outlen hf hkey houtlen
  obtain ⟨mode, hmode⟩ := exists_modeOf_eq_some houtlen
  exact ⟨_, assemble_ldkey_hash_wait hkey houtlen,
    exists_run_of_keyed_hash (s := { s with host := _ }) hf hmode rfl⟩

end Sys2Proof.Machine

/-! PROOFS. The permutation engine (40_permutation.md R57 to R66): the bit law of a rotation, SipRound and compress as
bijections, each stage undone by its opposite; and no step or command without a next state. -/

namespace Sys2Proof.Machine

/-! ### Rotations and additions -/

/-- The bit law of R57: the bits below `n` are those that `x >> (64 - n)` brings in, the others those of `x << n`. -/
theorem getLsbD_rotl64 (x : U64) {n i : Nat} (hpos : 1 ≤ n) (hn : n ≤ 63) (hi : i < 64) :
    (rotl64 x n).getLsbD i = x.getLsbD ((i + 64 - n) % 64) := by
  simp only [rotl64, BitVec.getLsbD_or, BitVec.getLsbD_shiftLeft, BitVec.getLsbD_ushiftRight, hi, decide_true,
    Bool.true_and]
  by_cases hlow : i < n
  · have hplace : (i + 64 - n) % 64 = 64 - n + i := by omega
    simp [hlow, hplace]
  · have hplace : (i + 64 - n) % 64 = i - n := by omega
    have hpast : x.getLsbD (64 - n + i) = false := x.getLsbD_of_ge _ (by omega)
    simp [hlow, hplace, hpast]

/-- A rotation is undone by the opposite rotation (R61). -/
theorem rotl64_rotl64_of_add_eq (x : U64) {m n : Nat} (hm : 1 ≤ m) (hn : 1 ≤ n) (hmn : m + n = 64) :
    rotl64 (rotl64 x m) n = x := by
  refine BitVec.eq_of_getLsbD_eq fun i hi => ?_
  have hplace : ((i + 64 - n) % 64 + 64 - m) % 64 = i := by omega
  rw [getLsbD_rotl64 _ hn (by omega) hi, getLsbD_rotl64 _ hm (by omega) (Nat.mod_lt _ (by decide)), hplace]

/-- Settles O5: the bit law of a rotation, and machine addition is addition modulo 2^64. -/
theorem rotationMovesEachBit : Obligations.RotationMovesEachBit :=
  ⟨fun x _ _ hpos hn hi => getLsbD_rotl64 x hpos hn hi, BitVec.toNat_add⟩

/-! ### SipRound in two half rounds -/

/-- The first half of R59's statements, for any rotation amounts of V1 and V3. The second half is the same with V0 and
V2 exchanged (`sipRound_eq_halfRounds`). -/
def halfRound (n m : Nat) (v : Vec4) : Vec4 :=
  ⟨rotl64 (v.v0 + v.v1) 32, rotl64 v.v1 n ^^^ (v.v0 + v.v1), v.v2 + v.v3, rotl64 v.v3 m ^^^ (v.v2 + v.v3)⟩

/-- Each statement of a half round undone, in the opposite order: by the same XOR, the opposite rotation and a
subtraction (R61). -/
def undoHalfRound (n m : Nat) (v : Vec4) : Vec4 :=
  let v1 := rotl64 (v.v1 ^^^ rotl64 v.v0 32) (64 - n)
  let v3 := rotl64 (v.v3 ^^^ v.v2) (64 - m)
  ⟨rotl64 v.v0 32 - v1, v1, v.v2 - v3, v3⟩

/-- V0 and V2 exchanged. -/
def swapV0V2 (v : Vec4) : Vec4 := ⟨v.v2, v.v1, v.v0, v.v3⟩

theorem swapV0V2_involutive : Function.Involutive swapV0V2 := fun _ => rfl

theorem sipRound_eq_halfRounds : sipRound = swapV0V2 ∘ halfRound 17 21 ∘ swapV0V2 ∘ halfRound 13 16 := rfl

section HalfRound

variable {n m : Nat} (hn : 1 ≤ n) (hn' : n ≤ 63) (hm : 1 ≤ m) (hm' : m ≤ 63)
include hn hn' hm hm'

theorem undoHalfRound_leftInverse : Function.LeftInverse (undoHalfRound n m) (halfRound n m) := fun v => by
  simp (disch := omega) [undoHalfRound, halfRound, rotl64_rotl64_of_add_eq]

theorem undoHalfRound_rightInverse : Function.RightInverse (undoHalfRound n m) (halfRound n m) := fun v => by
  simp (disch := omega) [undoHalfRound, halfRound, rotl64_rotl64_of_add_eq]

theorem halfRound_bijective : Function.Bijective (halfRound n m) :=
  Function.bijective_iff_has_inverse.mpr
    ⟨_, undoHalfRound_leftInverse hn hn' hm hm', undoHalfRound_rightInverse hn hn' hm hm'⟩

end HalfRound

/-- Settles O6: two half rounds and two exchanges of V0 and V2, each a bijection. -/
theorem sipRoundIsBijective : Obligations.SipRoundIsBijective := by
  unfold Obligations.SipRoundIsBijective
  have hfirst : Function.Bijective (halfRound 13 16) :=
    halfRound_bijective (by decide) (by decide) (by decide) (by decide)
  have hsecond : Function.Bijective (halfRound 17 21) :=
    halfRound_bijective (by decide) (by decide) (by decide) (by decide)
  have hswap := swapV0V2_involutive.bijective
  rw [sipRound_eq_halfRounds]
  exact hswap.comp (hsecond.comp (hswap.comp hfirst))

/-- Settles O7: the dataflow form names the value of each assignment of `sipRound`, so both unfold to one term. -/
theorem sipRoundHasDataflowForm : Obligations.SipRoundHasDataflowForm := fun _ => rfl

/-! ### rounds and compress -/

theorem rounds_bijective (n : Nat) : Function.Bijective (rounds n) := by
  induction n with
  | zero => exact Function.bijective_id
  | succ n ih => exact sipRoundIsBijective.comp ih

/-- The last statement of `compress` (R64). -/
def xorV0 (m : U64) (v : Vec4) : Vec4 := { v with v0 := v.v0 ^^^ m }

/-- The first statement of `compress` (R64). -/
def xorV3 (m : U64) (v : Vec4) : Vec4 := { v with v3 := v.v3 ^^^ m }

theorem xorV0_involutive (m : U64) : Function.Involutive (xorV0 m) := fun v => by
  simp [xorV0]

theorem xorV3_involutive (m : U64) : Function.Involutive (xorV3 m) := fun v => by
  simp [xorV3]

theorem compress_eq (m : U64) : (fun v => compress v m) = xorV0 m ∘ rounds Config.cRounds ∘ xorV3 m := rfl

theorem compress_bijective (m : U64) : Function.Bijective (fun v => compress v m) := by
  rw [compress_eq]
  exact (xorV0_involutive m).bijective.comp ((rounds_bijective _).comp (xorV3_involutive m).bijective)

/-- An XOR with 0 leaves its word, so only the rounds are left (R64). -/
theorem compress_zero (v : Vec4) : compress v 0 = rounds 2 v := by
  simp [compress, Config.cRounds]

/-- Settles O8: the rounds and the XOR on either side of them are bijections. -/
theorem compressIsBijective : Obligations.CompressIsBijective := ⟨compress_bijective, compress_zero⟩

/-! ### No step stops -/

/-- Only a completing edge runs a command, and every command answers a next state. -/
theorem exists_step (s : State) : ∃ t, step s = .next t := by
  cases he : s.edge with
  | complete c =>
    obtain ⟨t, hc, -⟩ := exists_execCommand c s.tick.retire
    exact ⟨t, (step_of_complete he).trans hc⟩
  | reset | accept | busy | idle => simp [step, he]

/-- Settles O41: each kind of edge has its next state, and each command too (R105). -/
theorem everyStepContinues : Obligations.EveryStepContinues := by
  refine ⟨exists_step, fun c s => ?_⟩
  obtain ⟨t, hc, -⟩ := exists_execCommand c s
  exact ⟨t, hc⟩

end Sys2Proof.Machine

/-! PROOFS. The key and the start of a message (41_key_init.md R67 to R73): which commands read and write K0 and K1, and
what LDK0, LDK1 and INIT write. -/

namespace Sys2Proof.Machine

/-! ### Which commands read and write the key -/

/-- `s` with other values of K0 and K1; KEYV stays. -/
def State.withKey (k0 k1 : U64) (s : State) : State := { s with k0 := k0, k1 := k1 }

theorem withKey_raise (k0 k1 : U64) (e : ErrorCause) (s : State) :
    (s.withKey k0 k1).raise e = (s.raise e).withKey k0 k1 := by
  rw [raise_eq, raise_eq]
  rfl

/-- No command but INIT reads the key (R72): with any other key the same command has the same outcome, but for what is in
K0 and K1. -/
theorem effect_withKey {i : Instr} {s t : State} (hnotInit : ∀ n, i ≠ .init n) (a b : U64) (e : Effect s i t) :
    ∃ a' b', Effect (s.withKey a b) i (t.withKey a' b') := by
  cases e with
  | nop => exact ⟨a, b, .nop⟩
  | ldk0 k => exact ⟨k, b, .ldk0 k⟩
  | ldk1 k => exact ⟨a, k, .ldk1 k⟩
  | initNoKey n | initBadLength n | initStarts n => exact absurd rfl (hnotInit n)
  | absorbOutOfPhase m hphase => exact ⟨a, b, withKey_raise .. ▸ .absorbOutOfPhase m hphase⟩
  | absorbCompresses m hphase => exact ⟨a, b, .absorbCompresses m hphase⟩
  | finalOutOfPhase nb d hphase => exact ⟨a, b, withKey_raise .. ▸ .finalOutOfPhase nb d hphase⟩
  | finalFinishes nb d hphase => exact ⟨a, b, .finalFinishes nb d hphase⟩
  | clrerr => exact ⟨a, b, .clrerr⟩
  | clear => exact ⟨0, 0, .clear⟩

/-- Only LDK0, LDK1 and CLEAR write the key (R13, R72). -/
theorem effect_keeps_key {i : Instr} {s t : State} (hldk0 : ∀ k, i ≠ .ldk0 k) (hldk1 : ∀ k, i ≠ .ldk1 k)
    (hclear : i ≠ .clear) (e : Effect s i t) : t.k0 = s.k0 ∧ t.k1 = s.k1 := by
  cases e with
  | ldk0 k => exact absurd rfl (hldk0 k)
  | ldk1 k => exact absurd rfl (hldk1 k)
  | clear => exact absurd rfl hclear
  | nop | initStarts | absorbCompresses | finalFinishes | clrerr => exact ⟨rfl, rfl⟩
  | initNoKey | initBadLength | absorbOutOfPhase | finalOutOfPhase => exact ⟨raise_k0 .., raise_k1 ..⟩

/-- Settles O20: outcome by outcome, no command but INIT looks at the key and none but LDK0, LDK1 and CLEAR writes it; the
outcomes of LDK0 and LDK1 keep V0..V3. -/
theorem onlyInitReadsTheKey : Obligations.OnlyInitReadsTheKey := by
  refine ⟨fun i s a b hnotInit => ?_, fun i s t hldk0 hldk1 hclear h => ?_, fun k s t h => ?_⟩
  · obtain ⟨t, e⟩ := exists_effect i s
    obtain ⟨a', b', e'⟩ := effect_withKey hnotInit a b e
    exact ⟨t, t.withKey a' b', exec_of_effect e, exec_of_effect e', rfl⟩
  · exact effect_keeps_key hldk0 hldk1 hclear (effect_of_exec h)
  · obtain h | h := h <;> cases effect_of_exec h <;> exact ⟨rfl, rfl, rfl, rfl⟩

/-! ### LDK0 and LDK1 -/

/-- `KEYV[0] <- 1` keeps bit 1 (R67). -/
theorem setKeyv0_eq_append (keyv : BitVec 2) : setKeyv0 keyv = keyv.extractLsb' 1 1 ++ 1#1 := by
  revert keyv
  decide

/-- `KEYV[1] <- 1` keeps bit 0 (R68). -/
theorem setKeyv1_eq_append (keyv : BitVec 2) : setKeyv1 keyv = 1#1 ++ keyv.extractLsb' 0 1 := by
  revert keyv
  decide

/-- Settles O11: each word is the encoding of its command, whose one outcome writes the key half and its KEYV bit. -/
theorem keyHalvesLoad : Obligations.KeyHalvesLoad := by
  intro s d
  rw [← setKeyv0_eq_append, ← setKeyv1_eq_append]
  exact ⟨decode_encode (i := .ldk0 d) rfl, exec_of_effect (.ldk0 d),
    decode_encode (i := .ldk1 d) rfl, exec_of_effect (.ldk1 d)⟩

/-! ### INIT -/

/-- The word of INIT as a number: every OUTLEN below 256 fits its field (R47, R50). -/
theorem decode_init_word {outlen : Nat} (h : outlen < 256) (d : U64) :
    decode ⟨BitVec.ofNat 32 (3 + outlen * 2 ^ 16), d⟩ = .ok (.init outlen) := by
  have hfits : (Instr.init outlen).wellFormed = true := by simpa [Instr.wellFormed, outlenFits] using h
  have hword : (BitVec.ofNat 32 (3 + outlen * 2 ^ 16)).toNat = (Instr.init outlen).wordNat :=
    (BitVec.toNat_ofNat _ _).trans (Nat.mod_eq_of_lt (by omega))
  exact decode_of_wordNat hfits hword

/-- Settles O12: the key check, then the OUTLEN check (R103), and past both the writes of R70 for either mode. -/
theorem initStartsMessage : Obligations.InitStartsMessage := by
  refine ⟨fun outlen d h => decode_init_word h d, fun s outlen hkey => ?_, fun s outlen hkey h8 h16 => ?_,
    fun s hkey => ?_, fun s hkey => ?_⟩
  · rw [recorded_eq_raise]
    exact exec_of_effect (.initNoKey outlen hkey)
  · have hmode : modeOf outlen = none := (modeOf_eq_none_iff outlen).mpr (not_or.mpr ⟨h8, h16⟩)
    rw [recorded_eq_raise]
    exact exec_of_effect (.initBadLength outlen hkey hmode)
  · exact exec_of_effect (.initStarts 8 .bytes8 hkey rfl)
  · exact exec_of_effect (.initStarts 16 .bytes16 hkey rfl)

end Sys2Proof.Machine

/-! PROOFS. Compression (42_compression.md R75, R76): what one ABSORB does, and what a run of ABSORBs and of commands that
spare the message leaves. -/

namespace Sys2Proof.Machine

/-- Settles O13: the word is the encoding of ABSORB, whose two outcomes are told apart by PHASE (R75, R99). -/
theorem absorbCompressesBlock : Obligations.AbsorbCompressesBlock := by
  intro s m
  rw [recorded_eq_raise]
  exact ⟨decode_encode (i := .absorb m) rfl, fun hphase => exec_of_effect (.absorbCompresses m hphase),
    fun hphase => exec_of_effect (.absorbOutOfPhase m hphase)⟩

/-! ### Commands that spare the message -/

/-- `s` with other values in K0, K1 and ERR, the only fields that a sparing command can write with the key loaded. -/
def State.withKeyErr (k0 k1 : U64) (err : Option ErrorCause) (s : State) : State :=
  { s with k0 := k0, k1 := k1, err := err }

theorem raise_eq_withKeyErr (e : ErrorCause) (s : State) :
    s.raise e = s.withKeyErr s.k0 s.k1 (s.raise e).err := by
  rw [raise_eq]
  rfl

/-- ABSORB neither reads nor writes K0, K1 and ERR (R72, R105). -/
theorem absorbBlocks_withKeyErr (blocks : List U64) (a b : U64) (x : Option ErrorCause) (s : State) :
    (s.withKeyErr a b x).absorbBlocks blocks = (s.absorbBlocks blocks).withKeyErr a b x := by
  rw [absorbBlocks_eq, absorbBlocks_eq]
  rfl

/-- An outcome of a command that spares the message, with the key loaded: a key load sets a KEYV bit that is set already,
and a command that fails writes ERR. -/
theorem exists_withKeyErr_of_spares {c : Command} {s t : State} (hc : sparesMessage c = true) (hkey : s.keyv = 0b11#2)
    (h : execCommand c s = .next t) : ∃ a b x, t = s.withKeyErr a b x := by
  obtain ⟨i, hd, e⟩ | ⟨_, -, rfl⟩ := complete_cases h
  · simp only [sparesMessage, hd] at hc
    cases e with
    | nop => exact ⟨s.k0, s.k1, s.err, rfl⟩
    | ldk0 k =>
      have hset : setKeyv0 s.keyv = s.keyv := by rw [hkey]; rfl
      exact ⟨k, s.k1, s.err, by rw [hset]; rfl⟩
    | ldk1 k =>
      have hset : setKeyv1 s.keyv = s.keyv := by rw [hkey]; rfl
      exact ⟨s.k0, k, s.err, by rw [hset]; rfl⟩
    | clrerr => exact ⟨s.k0, s.k1, none, rfl⟩
    | initNoKey | initBadLength => exact ⟨_, _, _, raise_eq_withKeyErr ..⟩
    | initStarts n mode _ hmode =>
      obtain rfl | rfl := outlen_of_modeOf_eq_some hmode <;> simp at hc
    | absorbOutOfPhase | absorbCompresses | finalOutOfPhase | finalFinishes | clear => simp at hc
  · exact ⟨_, _, _, raise_eq_withKeyErr ..⟩

/-! ### The blocks of a run -/

theorem decode_of_absorbedBlock {c : Command} {m : U64} (h : absorbedBlock c = some m) : decode c = .ok (.absorb m) := by
  unfold absorbedBlock at h
  split at h <;> simp_all

theorem absorbedBlock_of_spares {c : Command} (h : sparesMessage c = true) : absorbedBlock c = none := by
  refine Option.eq_none_iff_forall_ne_some.mpr fun m hm => ?_
  simp [sparesMessage, decode_of_absorbedBlock hm] at h

/-- A run of ABSORBs and sparing commands is the run of its ABSORBs alone, but for K0, K1 and ERR (R76). -/
theorem runCommands_absorbs_and_spares {cs : List Command} {s : State} (hphase : s.phase = .absorb)
    (hkey : s.keyv = 0b11#2) (hcs : ∀ c ∈ cs, sparesMessage c = true ∨ (absorbedBlock c).isSome = true) :
    ∃ a b x, runCommands cs s = .next ((s.absorbBlocks (cs.filterMap absorbedBlock)).withKeyErr a b x) := by
  induction cs generalizing s with
  | nil => exact ⟨s.k0, s.k1, s.err, rfl⟩
  | cons c cs ih =>
    obtain ⟨hc, hrest⟩ := List.forall_mem_cons.mp hcs
    obtain hspares | habsorbs := hc
    · obtain ⟨t, ht, -⟩ := exists_execCommand c s
      obtain ⟨a, b, x, rfl⟩ := exists_withKeyErr_of_spares hspares hkey ht
      obtain ⟨a', b', x', hrun⟩ := ih (s := s.withKeyErr a b x) hphase hkey hrest
      refine ⟨a', b', x', ?_⟩
      rw [runCommands_cons_of_next cs ht, hrun, absorbBlocks_withKeyErr,
        List.filterMap_cons_none (absorbedBlock_of_spares hspares)]
      rfl
    · obtain ⟨m, hm⟩ := Option.isSome_iff_exists.mp habsorbs
      have hexec : execCommand c s = .next (s.absorbBlock m) :=
        (execCommand_of_ok (decode_of_absorbedBlock hm) s).trans (exec_of_effect (.absorbCompresses m hphase))
      obtain ⟨a, b, x, hrun⟩ := ih (s := s.absorbBlock m) hphase hkey hrest
      refine ⟨a, b, x, ?_⟩
      rw [runCommands_cons_of_next cs hexec, hrun, List.filterMap_cons_some hm, absorbBlocks_cons]

/-- Settles O25: the run is its ABSORBs' own (`absorbBlocks_eq`), and the message is in none of K0, K1 and ERR. -/
theorem absorbedBlocksFold : Obligations.AbsorbedBlocksFold := by
  intro cs s hphase hkey hcs
  obtain ⟨a, b, x, hrun⟩ := runCommands_absorbs_and_spares hphase hkey hcs
  rw [absorbBlocks_eq] at hrun
  exact ⟨_, hrun, hphase, hkey, rfl, rfl, rfl⟩

end Sys2Proof.Machine

/-! PROOFS. Finalization (43_finalization.md R79 to R88): the tail block by its bytes and as a number, the outcomes of
FINAL, and what stands of a digest: it is the whole message's, and it stands until the next message. -/

namespace Sys2Proof.Machine

/-! ### The tail block, byte by byte -/

theorem byteOf_or (x y : U64) (i : Nat) : byteOf (x ||| y) i = byteOf x i ||| byteOf y i :=
  BitVec.extractLsb'_or

/-- The length tag is the low byte of the total length, in byte 7 (R82). -/
theorem byteOf_lengthTag (total : U64) {i : Nat} (hi : i < 8) :
    byteOf (lengthTag total) i = if i = 7 then byteOf total 0 else 0 := by
  refine BitVec.eq_of_getLsbD_eq fun j hj => ?_
  simp only [getLsbD_byteOf, lengthTag, BitVec.getLsbD_shiftLeft, BitVec.getLsbD_setWidth, BitVec.getLsbD_extractLsb']
  split_ifs with h7
  · subst h7
    have hin : j < 64 ∧ 56 + j < 64 := by omega
    rw [getLsbD_byteOf]
    simp [hj, hin]
  · have hlow : 8 * i + j < 56 := by omega
    simp [hlow]

/-- The tag and the tail bytes share no byte while the tail is shorter than 8 (R80, R82). -/
theorem byteOf_tailBlock (total d : U64) {nb i : Nat} (hnb : nb < 8) (hi : i < 8) :
    byteOf (tailBlock total nb d) i =
      if i < nb then byteOf d i else if i = 7 then byteOf total 0 else 0 := by
  rw [tailBlock, byteOf_or, byteOf_lengthTag _ hi, byteOf_and_tailMask _ _ hi]
  split_ifs with h7 hin
  · omega
  · exact BitVec.or_zero
  · exact BitVec.zero_or
  · exact BitVec.or_zero

/-- Settles O15: `byteOf_tailBlock` on the three ranges of R82. -/
theorem tailBlockBytes : Obligations.TailBlockBytes := by
  intro total d nb hnb
  refine ⟨fun i hi => ?_, fun i hlo hi => ?_, ?_⟩
  · rw [byteOf_tailBlock total d hnb (by omega), if_pos hi]
  · rw [byteOf_tailBlock total d hnb (by omega), if_neg (by omega), if_neg (by omega)]
  · rw [byteOf_tailBlock total d hnb (by omega), if_neg (by omega), if_pos rfl]

/-! ### The outcomes of FINAL -/

/-- The tail mask drops the bytes in which two DATA words with the same tail can differ (R80). -/
theorem and_tailMask_congr {d d' : U64} {nb : Nat} (h : ∀ i, i < nb → byteOf d i = byteOf d' i) :
    d &&& tailMask nb = d' &&& tailMask nb := by
  refine eq_of_byteOf_eq fun i hi => ?_
  rw [byteOf_and_tailMask _ _ hi, byteOf_and_tailMask _ _ hi]
  split_ifs with hin
  · exact h i hin
  · rfl

/-- FINAL uses DATA only under the tail mask (R79, R80). -/
theorem finishMessage_congr {d d' : U64} {nb : Nat} (h : d &&& tailMask nb = d' &&& tailMask nb) (s : State) :
    s.finishMessage nb d = s.finishMessage nb d' := by
  simp only [State.finishMessage, tailBlock, h]

/-- Settles O16: a successful FINAL sees the same masked DATA, and one out of phase sees none. -/
theorem finalIgnoresDataAboveTail : Obligations.FinalIgnoresDataAboveTail := by
  intro s nb d d' _ h
  by_cases hphase : s.phase = .absorb
  · rw [exec_of_effect (.finalFinishes nb d hphase), exec_of_effect (.finalFinishes nb d' hphase),
      finishMessage_congr (and_tailMask_congr h)]
  · rw [exec_of_effect (.finalOutOfPhase nb d hphase), exec_of_effect (.finalOutOfPhase nb d' hphase)]

/-- The word of FINAL as a number: every NB below 8 fits its field (R46, R50). -/
theorem decode_final_word {nb : Nat} (h : nb < 8) (d : U64) :
    decode ⟨BitVec.ofNat 32 (5 + nb * 2 ^ 8), d⟩ = .ok (.final nb d) := by
  have hfits : (Instr.final nb d).wellFormed = true := by simpa [Instr.wellFormed, nbFits] using h
  have hword : (BitVec.ofNat 32 (5 + nb * 2 ^ 8)).toNat = (Instr.final nb d).wordNat :=
    (BitVec.toNat_ofNat _ _).trans (Nat.mod_eq_of_lt (by omega))
  exact decode_of_wordNat hfits hword

theorem toNat_and_tailMask (d : U64) {nb : Nat} (hnb : nb < 8) :
    (d &&& tailMask nb).toNat = d.toNat % 2 ^ (8 * nb) := by
  have hpow : 2 ^ (8 * nb) ≤ 2 ^ 56 := Nat.pow_le_pow_right (by decide) (by omega)
  rw [BitVec.toNat_and, tailMask, BitVec.toNat_ofNat, Nat.mod_eq_of_lt (by omega), Nat.and_two_pow_sub_one_eq_mod]

theorem totalLength_eq_ofNat (len : U64) (nb : Nat) : totalLength len nb = BitVec.ofNat 64 (len.toNat + nb) := by
  rw [totalLength, add64, zextNb, BitVec.ofNat_add, BitVec.ofNat_toNat, BitVec.setWidth_eq]

/-- The tail block of a message as a number: the tag in the top byte, the tail below (R80 to R82). -/
theorem toNat_tailBlock (len d : U64) {nb : Nat} (hnb : nb < 8) :
    (tailBlock (totalLength len nb) nb d).toNat =
      (len.toNat + nb) % 256 * 2 ^ 56 + d.toNat % 2 ^ (8 * nb) := by
  have htail : d.toNat % 2 ^ (8 * nb) < 2 ^ 56 :=
    (Nat.mod_lt _ (Nat.two_pow_pos _)).trans_le (Nat.pow_le_pow_right (by decide) (by omega))
  have htag : (lengthTag (totalLength len nb)).toNat = 2 ^ 56 * ((len.toNat + nb) % 256) := by
    rw [totalLength_eq_ofNat, lengthTag_ofNat, BitVec.toNat_ofNat, Nat.mod_eq_of_lt (by omega), Nat.mul_comm]
  rw [tailBlock, BitVec.toNat_or, htag, toNat_and_tailMask _ hnb, ← Nat.two_pow_add_eq_or_of_lt htail, Nat.mul_comm]

/-- Settles O14: `b` is the tail block, and the two outcomes of FINAL are told apart by PHASE (R79, R99); a success writes
what R79 lists, in either MODE. -/
theorem finalProducesDigest : Obligations.FinalProducesDigest := by
  intro s nb d b hnb hb
  refine ⟨decode_final_word hnb d, fun hphase => ?_, fun hphase => ?_⟩
  · have htail : b = tailBlock (totalLength s.len nb) nb d :=
      BitVec.eq_of_toNat_eq (hb.trans (toNat_tailBlock s.len d hnb).symm)
    rw [exec_of_effect (.finalFinishes nb d hphase), htail, State.finishMessage]
    cases s.mode <;> rfl
  · rw [recorded_eq_raise]
    exact exec_of_effect (.finalOutOfPhase nb d hphase)

/-! ### Whole messages -/

/-- INIT, the ABSORBs of the full blocks and FINAL, with the key loaded: the digest is the source's (R88). -/
theorem exists_runCommands_message {s : State} {key msg : List Byte} {outlen : Nat} {d : U64}
    (houtlen : outlen = 8 ∨ outlen = 16) (hd : d &&& tailMask (tailLength msg) = tailWord msg)
    (hkeyv : s.keyv = 0b11#2) (hk0 : s.k0 = le64At key 0) (hk1 : s.k1 = le64At key 8) :
    ∃ t, runCommands
        ((Instr.init outlen :: (messageBlocks msg).map Instr.absorb ++ [Instr.final (tailLength msg) d]).map encode) s =
        .next t ∧
      t.digest = siphash msg key outlen ∧ t.phase = .done ∧ t.err = s.err ∧ t.len = BitVec.ofNat 64 msg.length := by
  obtain ⟨mode, hmode⟩ := exists_modeOf_eq_some houtlen
  obtain ⟨herr, -⟩ := afterMessage_frame s mode msg d
  have htail : tailLength msg < 8 := Nat.mod_lt _ (by decide)
  exact ⟨s.afterMessage mode msg d, runCommands_message _ d hkeyv hmode htail,
    afterMessage_digest hmode hk0.symm hk1.symm hd, rfl, herr, afterMessage_len ..⟩

/-- Settles O26: with the key loaded it is `exists_runCommands_message`, and LDK0 and LDK1 load the key from any state. -/
theorem wholeMessageLaw : Obligations.WholeMessageLaw := by
  intro s key msg outlen d _ houtlen hd body
  refine ⟨?_, exists_runCommands_message houtlen hd⟩
  rw [runCommands_keyCommands]
  exact exists_runCommands_message (s := s.loadKey key) houtlen hd rfl rfl rfl

/-! ### A finished digest stands -/

/-- In PHASE = DONE every other command leaves the digest and what it belongs to: ABSORB and FINAL fail there (R87, R99). -/
theorem effect_keeps_digest {i : Instr} {s t : State} (e : Effect s i t) (hdone : s.phase = .done)
    (hclear : i ≠ .clear) (hinit : s.keyv = 0b11#2 → i ≠ .init 8 ∧ i ≠ .init 16) :
    t.h0 = s.h0 ∧ t.h1 = s.h1 ∧ t.len = s.len ∧ t.mode = s.mode ∧ t.phase = .done := by
  cases e with
  | nop | ldk0 | ldk1 | clrerr => exact ⟨rfl, rfl, rfl, rfl, hdone⟩
  | initNoKey | initBadLength | absorbOutOfPhase | finalOutOfPhase => simp [hdone]
  | initStarts n m hkey hmode =>
    obtain ⟨h8, h16⟩ := hinit hkey
    obtain rfl | rfl := outlen_of_modeOf_eq_some hmode
    · exact absurd rfl h8
    · exact absurd rfl h16
  | absorbCompresses m hphase | finalFinishes nb d hphase => simp [hdone] at hphase
  | clear => exact absurd rfl hclear

/-- Settles O45: between commands no register changes, an illegal word writes only ERR, and a command that is left keeps the
digest (`effect_keeps_digest`). -/
theorem digestStandsUntilNextMessage : Obligations.DigestStandsUntilNextMessage := by
  intro s t h hdone hreset hcommand
  obtain ⟨he, -⟩ | ⟨c, -, rfl⟩ | ⟨f, -, rfl⟩ | ⟨c, he, hc⟩ | ⟨-, rfl⟩ := step_cases s t h
  · exact absurd he hreset
  · exact ⟨rfl, rfl, rfl, rfl, hdone⟩
  · exact ⟨rfl, rfl, rfl, rfl, hdone⟩
  · obtain ⟨hclear, hinit⟩ := hcommand c he
    obtain ⟨i, hd, e⟩ | ⟨_, -, rfl⟩ := complete_cases hc
    · simp only [hd, ne_eq, Except.ok.injEq] at hclear hinit
      exact effect_keeps_digest (s := s.tick.retire) e hdone hclear hinit
    · simp [hdone]
  · exact ⟨rfl, rfl, rfl, rfl, hdone⟩

end Sys2Proof.Machine

/-! PROOFS. NOP, CLRERR and CLEAR (44_control.md R89 to R91), and the legality of each command by PHASE with the PHASE it
leaves (R95). -/

namespace Sys2Proof.Machine

/-! ### The legality of a command by PHASE -/

/-- The PHASE a command leaves (R95): only CLEAR and a successful INIT or FINAL write it (R16). -/
def State.nextPhase (i : Instr) (s : State) : Phase :=
  match i with
  | .init outlen => if s.keyv = 0b11#2 ∧ (outlen = 8 ∨ outlen = 16) then .absorb else s.phase
  | .final _ _ => if s.phase = .absorb then .done else s.phase
  | .clear => .idle
  | _ => s.phase

theorem effect_phase {i : Instr} {s t : State} (e : Effect s i t) : t.phase = s.nextPhase i := by
  cases e with
  | nop | ldk0 | ldk1 | absorbCompresses | clrerr | clear => rfl
  | absorbOutOfPhase => exact raise_phase ..
  | initNoKey n hkey => simp [State.nextPhase, hkey]
  | initBadLength n hkey hmode => simp [State.nextPhase, (modeOf_eq_none_iff n).mp hmode]
  | initStarts n m hkey hmode => simp [State.nextPhase, hkey, outlen_of_modeOf_eq_some hmode]
  | finalOutOfPhase _ _ hphase | finalFinishes _ _ hphase => simp [State.nextPhase, hphase]

/-- With no error recorded before, SequenceError is recorded by the outcomes of ABSORB and FINAL out of phase and by no
other (R99). -/
theorem effect_sequenceError_iff {i : Instr} {s t : State} (e : Effect s i t) (hnone : s.err = none) :
    t.err = some .sequenceError ↔ s.phase ≠ .absorb ∧ ((∃ m, i = .absorb m) ∨ ∃ nb d, i = .final nb d) := by
  cases e with
  | nop | ldk0 | ldk1 | clrerr | clear => simp [hnone]
  | initNoKey | initBadLength | initStarts => simp [hnone]
  | absorbOutOfPhase _ hphase | finalOutOfPhase _ _ hphase => simp [hnone, hphase]
  | absorbCompresses _ hphase | finalFinishes _ _ hphase => simp [hnone, hphase]

/-- Settles O21: every command has an outcome, whose PHASE and error are told by the command and the state before; a word
that no row decodes raises IllegalCommand with no look at PHASE. -/
theorem legalityByPhase : Obligations.LegalityByPhase := by
  refine ⟨fun i s => ?_, fun c s hillegal => ?_⟩
  · obtain ⟨t, e⟩ := exists_effect i s
    refine ⟨t, exec_of_effect e, ?_, effect_sequenceError_iff e⟩
    rw [effect_phase e]
    cases i <;> rfl
  · obtain ⟨k, hd⟩ := (exists_decode_eq_error_iff c).mpr hillegal
    rw [execCommand_of_error hd, recorded_eq_raise]

/-! ### NOP -/

theorem step_of_accept {s : State} {c : Command} (h : s.edge = .accept c) :
    step s = .next (s.tick.accept c s.time) := by
  simp [step, h]

/-- Settles O10: NOP has one outcome, the state itself; an accepted command is in flight, so BUSY is 1 (R117, R118). -/
theorem nopLeavesEveryState : Obligations.NopLeavesEveryState :=
  ⟨fun _ => decode_of_wordNat (i := .nop) rfl rfl, fun _ => exec_of_effect .nop,
    fun _ _ h => ⟨_, step_of_accept h, rfl⟩⟩

/-! ### CLRERR -/

theorem clearErr_of_none {s : State} (h : s.err = none) : s.clearErr = s := by
  rw [State.clearErr, ← h]

/-- Settles O17: CLRERR has one outcome, which writes ERR and nothing else. -/
theorem clrerrClearsOnlyErr : Obligations.ClrerrClearsOnlyErr := by
  refine ⟨fun _ => decode_of_wordNat (i := .clrerr) rfl rfl, fun _ => exec_of_effect .clrerr, fun s hnone => ?_⟩
  rw [exec_of_effect .clrerr, clearErr_of_none hnone]

/-! ### CLEAR -/

/-- With BUSY = 0 no field of STATUS is set once the block is zeroized (R21, R91). -/
theorem status_zeroize {s : State} (h : s.busy = false) : s.zeroize.status = 0 := by
  have hbusy : s.zeroize.busy = false := h
  simp [State.status, hbusy, State.errBits, Mode.bit, Phase.bits]

/-- With no key half loaded and no error recorded, INIT records InvalidKeyLength whatever its OUTLEN (R100, R103). -/
theorem exec_init_zeroize (outlen : Nat) (s : State) :
    exec (.init outlen) s.zeroize = .next { s.zeroize with err := some .invalidKeyLength } :=
  exec_of_effect (.initNoKey outlen (by simp))

/-- Only CLEAR turns a KEYV bit off (R14, R91). -/
theorem effect_keeps_keyv_bit {i : Instr} {s t : State} {b : Nat} (hclear : i ≠ .clear) (e : Effect s i t)
    (hb : s.keyv.getLsbD b = true) : t.keyv.getLsbD b = true := by
  cases e with
  | nop | initStarts | absorbCompresses | finalFinishes | clrerr => exact hb
  | ldk0 | ldk1 => simp [setKeyv0, setKeyv1, hb]
  | initNoKey | initBadLength | absorbOutOfPhase | finalOutOfPhase => rwa [raise_keyv]
  | clear => exact absurd rfl hclear

/-- Settles O18: CLEAR has one outcome, the zeroized state, in which STATUS is 0 and INIT finds no key; and no outcome of
another command turns a KEYV bit off. -/
theorem clearZeroizes : Obligations.ClearZeroizes := by
  refine ⟨fun _ => decode_of_wordNat (i := .clear) rfl rfl, fun _ => exec_of_effect .clear, fun s t hbusy h => ?_,
    fun s t outlen h => ?_, fun i s t b hclear h => effect_keeps_keyv_bit hclear (effect_of_exec h)⟩
  · cases effect_of_exec h
    exact status_zeroize hbusy
  · cases effect_of_exec h
    exact exec_init_zeroize outlen s

end Sys2Proof.Machine

/-! PROOFS. Errors (60_exceptions.md R97 to R106): the one error a command raises, what a step does to ERR, and that ERR
gates nothing. -/

namespace Sys2Proof.Machine

/-! ### The error of a decoded command -/

/-- The error a decoded command raises (R99 to R101), the key check of INIT before its OUTLEN check (R103). -/
def State.errorOfInstr (i : Instr) (s : State) : Option ErrorCause :=
  match i with
  | .init n =>
    if s.keyv ≠ 0b11#2 then some .invalidKeyLength
    else if modeOf n = none then some .unsupportedOutputLength
    else none
  | .absorb _ | .final _ _ => if s.phase ≠ .absorb then some .sequenceError else none
  | _ => none

theorem illegalWord_eq_false_of_ok {c : Command} {i : Instr} (hd : decode c = .ok i) : illegalWord c.word = false := by
  refine Bool.eq_false_iff.mpr fun hillegal => ?_
  obtain ⟨k, hk⟩ := (exists_decode_eq_error_iff c).mpr hillegal
  simp [hd] at hk

theorem errorOf_of_error {c : Command} {k : IllegalKind} (hd : decode c = .error k) (s : State) :
    errorOf c s = some .illegalCommand := by
  have hillegal := (exists_decode_eq_error_iff c).mp ⟨k, hd⟩
  simp [errorOf, hillegal]

/-- Past the legality check, `errorOf` reads OP and OUTLEN off the word; the word is that of the decoded command. -/
theorem errorOf_of_ok {c : Command} {i : Instr} (hd : decode c = .ok i) (s : State) :
    errorOf c s = s.errorOfInstr i := by
  obtain ⟨hwf, hw, -⟩ := of_decode_eq_ok hd
  simp only [errorOf, illegalWord_eq_false_of_ok hd, hw]
  cases i with
  | nop | ldk0 | ldk1 | absorb | clrerr | clear => simp [Instr.wordNat, State.errorOfInstr]
  | init n =>
    have hn : n < 256 := by simpa [Instr.wellFormed, outlenFits] using hwf
    have hop : (3 + n * 2 ^ 16) % 256 = 3 := by omega
    have houtlen : (3 + n * 2 ^ 16) / 2 ^ 16 % 256 = n := by omega
    simp only [Instr.wordNat, hop, houtlen]
    simp [State.errorOfInstr, modeOf_eq_none_iff]
  | final nb d =>
    have hop : (5 + nb * 2 ^ 8) % 256 = 5 := by omega
    simp only [Instr.wordNat, hop]
    simp [State.errorOfInstr]

/-! ### What a command does to ERR -/

/-- An outcome of a command is the record of its one error and nothing else (R97), or there is no error and only CLRERR
and CLEAR touch ERR (R90, R91, R106). -/
theorem effect_error_cases {i : Instr} {s t : State} (e : Effect s i t) :
    (∃ x, s.errorOfInstr i = some x ∧ t = s.raise x) ∨
      (s.errorOfInstr i = none ∧ t.err = if i = .clrerr ∨ i = .clear then none else s.err) := by
  cases e with
  | initNoKey n hkey => exact .inl ⟨_, by simp [State.errorOfInstr, hkey], rfl⟩
  | initBadLength n hkey hmode => exact .inl ⟨_, by simp [State.errorOfInstr, hkey, hmode], rfl⟩
  | absorbOutOfPhase _ hphase | finalOutOfPhase _ _ hphase => exact .inl ⟨_, by simp [State.errorOfInstr, hphase], rfl⟩
  | nop | ldk0 | ldk1 | clrerr | clear => exact .inr (by simp [State.errorOfInstr])
  | initStarts n m hkey hmode => exact .inr (by simp [State.errorOfInstr, hkey, hmode])
  | absorbCompresses _ hphase | finalFinishes _ _ hphase => exact .inr (by simp [State.errorOfInstr, hphase])

/-- `effect_error_cases` with decoding before it: an illegal word is the first cause (R98, R103). -/
theorem execCommand_error_cases {c : Command} {s t : State} (h : execCommand c s = .next t) :
    (∃ x, errorOf c s = some x ∧ t = s.raise x) ∨
      (errorOf c s = none ∧ ∃ i, decode c = .ok i ∧ t.err = if i = .clrerr ∨ i = .clear then none else s.err) := by
  obtain ⟨i, hd, e⟩ | ⟨k, hd, rfl⟩ := complete_cases h
  · rw [errorOf_of_ok hd]
    exact (effect_error_cases e).imp_right fun ⟨hnone, herr⟩ => ⟨hnone, i, hd, herr⟩
  · exact .inl ⟨_, errorOf_of_error hd s, rfl⟩

/-- Settles O22: every command answers a next state, which is one of `execCommand_error_cases`. -/
theorem errorsFollowPriority : Obligations.ErrorsFollowPriority := by
  intro c s
  obtain ⟨t, ht, -⟩ := exists_execCommand c s
  obtain ⟨x, hx, rfl⟩ | ⟨hnone, i, hd, herr⟩ := execCommand_error_cases ht
  · simp only [hx, ht, recorded_eq_raise]
  · simp only [hnone]
    exact ⟨i, t, hd, ht, herr⟩

/-! ### What a step does to ERR -/

/-- With no error recorded before, ERR afterwards is exactly the command's error: clearing it too leaves 0. -/
theorem execCommand_err_of_none {c : Command} {s t : State} (h : execCommand c s = .next t) (hnone : s.err = none) :
    t.err = errorOf c s := by
  obtain ⟨x, hx, rfl⟩ | ⟨hx, i, -, herr⟩ := execCommand_error_cases h
  · rw [hx, raise_err_of_none x hnone]
  · rw [hx, herr, hnone, ite_self]

theorem step_of_reset {s : State} (h : s.edge = .reset) : step s = .next s.tick.resetBlock := by
  simp [step, h]

/-- A step records an error only at a completing edge, where the command sees the registers as they were before it. -/
theorem step_err_eq_some_iff {s t : State} (h : step s = .next t) (hnone : s.err = none) (x : ErrorCause) :
    t.err = some x ↔ ∃ c, s.edge = .complete c ∧ errorOf c s = some x := by
  obtain ⟨he, rfl⟩ | ⟨c, he, rfl⟩ | ⟨f, he, rfl⟩ | ⟨c, he, hc⟩ | ⟨he, rfl⟩ := step_cases s t h
  · simp [he]
  · simp [he, hnone]
  · simp [he, hnone]
  · have herr : t.err = errorOf c s := execCommand_err_of_none (s := s.tick.retire) hc hnone
    simp [he, herr]
  · simp [he, hnone]

/-- CLRERR and CLEAR have one outcome each, and it holds no error (R90, R91). -/
theorem exists_execCommand_clears {c : Command} (h : decode c = .ok .clrerr ∨ decode c = .ok .clear) (s : State) :
    ∃ t, execCommand c s = .next t ∧ t.err = none := by
  obtain hd | hd := h
  · exact ⟨s.clearErr, (execCommand_of_ok hd s).trans (exec_of_effect .clrerr), rfl⟩
  · exact ⟨s.zeroize, (execCommand_of_ok hd s).trans (exec_of_effect .clear), rfl⟩

/-- Settles O23: a recorded error stays but for the three that clear it, and from ERR = 0 a step records the error of the
command it completes. -/
theorem errIsSticky : Obligations.ErrIsSticky := by
  refine ⟨fun s t x => step_err_of_some, fun s he => ⟨_, step_of_reset he, rfl⟩, fun s c he hclears => ?_,
    fun s t x h hnone => step_err_eq_some_iff h hnone x⟩
  rw [step_of_complete he]
  exact exists_execCommand_clears hclears _

/-! ### ERR gates nothing -/

/-- `s` with another value in ERR. -/
def State.withErr (x : Option ErrorCause) (s : State) : State := { s with err := x }

theorem withErr_raise (x : Option ErrorCause) (e : ErrorCause) (s : State) :
    (s.withErr x).raise e = (s.raise e).withErr (some (x.getD e)) := by
  rw [raise_eq, raise_eq]
  rfl

/-- No condition of an outcome looks at ERR (R105): with another value in ERR the same command has the same outcome, but
for what is in ERR. -/
theorem effect_withErr {i : Instr} {s t : State} (x : Option ErrorCause) (e : Effect s i t) :
    ∃ x', Effect (s.withErr x) i (t.withErr x') := by
  cases e with
  | nop => exact ⟨x, .nop⟩
  | ldk0 k => exact ⟨x, .ldk0 k⟩
  | ldk1 k => exact ⟨x, .ldk1 k⟩
  | initNoKey n hkey => exact ⟨some (x.getD .invalidKeyLength), withErr_raise .. ▸ .initNoKey n hkey⟩
  | initBadLength n hkey hmode =>
    exact ⟨some (x.getD .unsupportedOutputLength), withErr_raise .. ▸ .initBadLength n hkey hmode⟩
  | initStarts n m hkey hmode => exact ⟨x, .initStarts n m hkey hmode⟩
  | absorbOutOfPhase m hphase => exact ⟨some (x.getD .sequenceError), withErr_raise .. ▸ .absorbOutOfPhase m hphase⟩
  | absorbCompresses m hphase => exact ⟨x, .absorbCompresses m hphase⟩
  | finalOutOfPhase nb d hphase => exact ⟨some (x.getD .sequenceError), withErr_raise .. ▸ .finalOutOfPhase nb d hphase⟩
  | finalFinishes nb d hphase => exact ⟨x, .finalFinishes nb d hphase⟩
  | clrerr => exact ⟨none, .clrerr⟩
  | clear => exact ⟨none, .clear⟩

theorem execCommand_withErr {c : Command} {s t : State} (x : Option ErrorCause) (h : execCommand c s = .next t) :
    ∃ x', execCommand c (s.withErr x) = .next (t.withErr x') := by
  obtain ⟨i, hd, e⟩ | ⟨k, hd, rfl⟩ := complete_cases h
  · obtain ⟨x', e'⟩ := effect_withErr x e
    exact ⟨x', (execCommand_of_ok hd _).trans (exec_of_effect e')⟩
  · exact ⟨_, by rw [execCommand_of_error hd, withErr_raise]⟩

/-- Settles O24: a command's outcome from `s` is, up to ERR, its outcome with any other value in ERR. -/
theorem errGatesNoCommand : Obligations.ErrGatesNoCommand := by
  intro c s x
  obtain ⟨t, ht, -⟩ := exists_execCommand c s
  obtain ⟨x', ht'⟩ := execCommand_withErr x ht
  exact ⟨t, _, ht, ht', rfl⟩

end Sys2Proof.Machine

/-! PROOFS. The edges of clk (70_reset_and_hazards.md R112 to R124): one command from its acceptance to its completion, the
handshake, reset, and the end of a run. -/

namespace Sys2Proof.Machine

/-! ### From acceptance to completion under any script -/

/-- No entry of the script drives a reset, so rst_n stays 1 until the script ends, and after it. -/
def neverResets (host : List HostAct) : Prop := ∀ a ∈ host, a.pins.rstN = true

theorem pins_rstN_of_neverResets {s : State} (h : neverResets s.host) : s.pins.rstN = true := by
  unfold State.pins
  cases hs : s.host with
  | nil => rfl
  | cons a rest => exact h a (by simp [hs])

theorem hostNext_subset (s : State) : s.hostNext ⊆ s.host := by
  unfold State.hostNext
  cases hs : s.host with
  | nil => simp
  | cons a rest =>
    cases a with
    | send | wait => dsimp only; split <;> simp
    | cycle p => simp

theorem neverResets_hostNext {s : State} (h : neverResets s.host) : neverResets s.hostNext :=
  fun a ha => h a (hostNext_subset s ha)

theorem step_of_busy {s : State} {f : InFlight} (h : s.edge = .busy f) : step s = .next (s.tick.countDown f) := by
  simp [step, h]

/-- `s` with `c` in flight and `left` busy cycles to go. -/
def State.withInflight (c : Command) (left : Nat) (s : State) : State := { s with inflight := some ⟨c, left⟩ }

theorem withInflight_of_inflight {c : Command} {left : Nat} {s : State} (hf : s.inflight = some ⟨c, left⟩) :
    s.withInflight c left = s := by
  rw [State.withInflight, ← hf]

/-- Until its last busy cycle a command in flight only counts down (R118). The script may go on meanwhile; all that is
known of what is left of it is that it drives no reset. -/
theorem exists_run_withInflight {c : Command} {left j : Nat} {s : State} (hf : s.inflight = some ⟨c, left + j⟩)
    (hleft : 1 ≤ left) (hw : neverResets s.host) :
    ∃ h, neverResets h ∧
      Host.Core.run Sys2Proof.core j s = .next ((s.withInflight c left).withEnv h s.cmdIndex (s.time + j)) := by
  induction j generalizing s with
  | zero =>
    rw [withInflight_of_inflight (left := left) hf]
    exact ⟨s.host, hw, rfl⟩
  | succ j ih =>
    have hedge : s.edge = .busy ⟨c, left + (j + 1)⟩ :=
      (edge_busy_iff s _).mpr ⟨pins_rstN_of_neverResets hw, hf, by dsimp only; omega⟩
    obtain ⟨h, hh, hrun⟩ := ih (s := s.tick.countDown ⟨c, left + (j + 1)⟩) rfl (neverResets_hostNext hw)
    refine ⟨h, hh, (run_succ_of_next (step_of_busy hedge)).trans (hrun.trans ?_)⟩
    rw [countDown_time, tick_time, Nat.add_right_comm, Nat.add_assoc]
    rfl

/-- In its last busy cycle a command completes, on the registers it was accepted with. -/
theorem exists_step_withInflight_one {h : List HostAct} (hh : neverResets h) (c : Command) (n k : Nat) (s : State) :
    ∃ h', step ((s.withInflight c 1).withEnv h n k) = execCommand c (s.retire.withEnv h' n (k + 1)) :=
  have hedge : ((s.withInflight c 1).withEnv h n k).edge = .complete c :=
    (edge_complete_iff _ c).mpr ⟨pins_rstN_of_neverResets hh, _, rfl, le_rfl, rfl⟩
  ⟨_, step_of_complete hedge⟩

/-- The acceptance and `j` edges more, while `left` of the command's busy cycles are still to go. -/
theorem exists_run_of_accept {c : Command} {left j : Nat} {s : State} (hedge : s.edge = .accept c)
    (hw : neverResets s.host) (hleft : 1 ≤ left) (hlatency : left + j = Config.latency (opField c.word) s.time) :
    ∃ h, neverResets h ∧ Host.Core.run Sys2Proof.core (j + 1) s =
      .next ((s.withInflight c left).withEnv h (s.cmdIndex + 1) (s.time + 1 + j)) := by
  rw [run_succ_of_next (step_of_accept hedge)]
  exact exists_run_withInflight (s := s.tick.accept c s.time) (hlatency ▸ rfl) hleft (neverResets_hostNext hw)

/-- The acceptance, the busy cycles and the completion: the command's own outcome, in another environment. -/
theorem exists_run_through_latency {c : Command} {s t : State} (hedge : s.edge = .accept c)
    (hw : neverResets s.host) (ht : execCommand c s = .next t) :
    ∃ h k, Host.Core.run Sys2Proof.core (Config.latency (opField c.word) s.time + 1) s =
      .next (t.withEnv h (s.cmdIndex + 1) k) := by
  obtain ⟨-, -, hnone, -⟩ := (edge_accept_iff s c).mp hedge
  obtain ⟨h, hh, hbusy⟩ := exists_run_of_accept hedge hw le_rfl (Nat.add_comm 1 _)
  obtain ⟨h', hlast⟩ := exists_step_withInflight_one hh c (s.cmdIndex + 1) _ s
  rw [retire_of_not_inflight hnone, execCommand_withEnv _ _ _ ht] at hlast
  exact ⟨h', _, (run_add 1 hbusy).trans (run_succ_of_next hlast)⟩

theorem cmdReady_of_busy {s : State} (h : s.busy = true) : s.cmdReady = false := by
  simp [State.cmdReady, h]

/-- Settles O37: `exists_run_of_accept` for each busy cycle, and `exists_run_through_latency` for the edge after the
last of them. -/
theorem commandsAreAtomicAndComplete : Obligations.CommandsAreAtomicAndComplete := by
  intro s c hedge hw
  obtain ⟨-, -, hnone, -⟩ := (edge_accept_iff s c).mp hedge
  refine ⟨Nat.succ_pos _, fun k hpos (hk : k ≤ Config.latency (opField c.word) s.time) => ?_, ?_⟩
  · obtain ⟨j, rfl⟩ := Nat.exists_eq_add_one.mpr hpos
    obtain ⟨left, hleft⟩ := Nat.exists_eq_add_of_lt hk
    obtain ⟨h, -, hrun⟩ := exists_run_of_accept (left := left + 1) (j := j) hedge hw (Nat.succ_pos left) (by omega)
    refine ⟨_, hrun, rfl, cmdReady_of_busy rfl, rfl, ?_⟩
    rw [State.sameBlock, ← hnone]
    rfl
  · obtain ⟨t, ht, hinflight, hhost, hindex, htime⟩ := exists_execCommand c s
    obtain ⟨h, k, hrun⟩ := exists_run_through_latency hedge hw ht
    refine ⟨_, hrun, ?_, rfl, ?_⟩
    · rw [busy_withEnv, busy_eq, hinflight, hnone]
      rfl
    · rw [ht, ← hhost, ← hindex, ← htime]
      rfl

/-! ### Acceptance -/

/-- Settles O34: `cmdReady` by the value of rst_n. -/
theorem readyIsNotBusy : Obligations.ReadyIsNotBusy :=
  fun s => ⟨fun h => by simp [State.cmdReady, h], fun h => by simp [State.cmdReady, h]⟩

/-- The handshake's three signals are the condition of the accepting edge (R117): cmd_ready is 1 only with nothing in
flight. -/
theorem edge_accept_iff_handshake (s : State) :
    s.edge = .accept ⟨s.pins.cmdWord, s.pins.cmdData⟩ ↔
      s.pins.rstN = true ∧ s.pins.cmdValid = true ∧ s.cmdReady = true := by
  rw [edge_accept_iff]
  simp +contextual [State.cmdReady, busy_eq]

/-- Only an accepting edge moves the host's index (R22): no command writes it. -/
theorem step_cmdIndex_of_not_accept {s t : State} (h : step s = .next t) (hne : ∀ c, s.edge ≠ .accept c) :
    t.cmdIndex = s.cmdIndex := by
  obtain ⟨-, rfl⟩ | ⟨c, he, -⟩ | ⟨f, -, rfl⟩ | ⟨c, -, hc⟩ | ⟨-, rfl⟩ := step_cases s t h
  · rfl
  · exact absurd he (hne c)
  · rfl
  · obtain ⟨u, hu, -, -, hindex, -⟩ := exists_execCommand c s.tick.retire
    cases hc.symm.trans hu
    exact hindex
  · rfl

/-- Settles O35: the three signals are the accepting edge, and the other edges leave the index. -/
theorem acceptanceNeedsValidAndReady : Obligations.AcceptanceNeedsValidAndReady := by
  refine ⟨fun s hrst hvalid hready => ?_, fun s t h hnot => step_cmdIndex_of_not_accept h fun c he => hnot ?_⟩
  · have hedge := (edge_accept_iff_handshake s).mpr ⟨hrst, hvalid, hready⟩
    exact ⟨_, _, step_of_accept hedge, Nat.succ_pos _, rfl, rfl⟩
  · obtain ⟨-, -, -, rfl⟩ := (edge_accept_iff s c).mp he
    exact (edge_accept_iff_handshake s).mp he

/-! ### Completion -/

theorem decodeTableWord_eq_some_iff (nbits w : Nat) (i : Instr) :
    decodeTableWord nbits w = some i ↔ decode (tableCommand nbits w) = .ok i := by
  unfold decodeTableWord
  cases decode (tableCommand nbits w) <;> simp

theorem step_place (c : Command) (s : State) :
    step (s.place c) = execCommand c (s.retire.withEnv s.host s.cmdIndex (s.time + 1)) :=
  step_of_complete (edge_place c s)

/-- Settles O32: a completing edge runs the command on the state after `tick` and `retire`, and a placed command
completes at the next edge. -/
theorem stepRunsTheDecodedCommand : Obligations.StepRunsTheDecodedCommand := by
  refine ⟨fun s c i he hd => ?_, fun s c k he hd => ?_, fun s nbits w i hw => ?_⟩
  · exact (step_of_complete he).trans (execCommand_of_ok hd _)
  · rw [recorded_eq_raise]
    exact (step_of_complete he).trans (execCommand_of_error hd _)
  · exact (step_place _ s).trans (execCommand_of_ok ((decodeTableWord_eq_some_iff nbits w i).mp hw) _)

/-! ### Reset -/

/-- Only a driven cycle holds rst_n at 0, and it lasts one cycle. -/
theorem hostNext_of_reset {s : State} (h : s.pins.rstN = false) : s.hostNext = s.host.tail := by
  unfold State.pins at h
  unfold State.hostNext
  cases hs : s.host with
  | nil => rfl
  | cons a rest =>
    cases a with
    | send | wait => simp [hs, HostAct.pins, Pins.idle] at h
    | cycle p => rfl

theorem resetBlock_eq (s : State) :
    s.resetBlock = { State.reset with host := s.host, cmdIndex := s.cmdIndex, time := s.time } := rfl

theorem status_resetBlock (s : State) : s.resetBlock.status = 0 := status_zeroize (s := s.retire) rfl

/-- Settles O33: the step is `resetBlock` of the ticked state, whatever was in flight or presented. -/
theorem resetEdgeResetsEverything : Obligations.ResetEdgeResetsEverything := by
  intro s hrst
  have hstep := step_of_reset ((edge_reset_iff s).mpr hrst)
  refine ⟨(readyIsNotBusy s).2 hrst, ?_, fun t ht => ?_⟩
  · rw [hstep, resetBlock_eq, tick_host, hostNext_of_reset hrst]
    rfl
  · cases hstep.symm.trans ht
    exact status_resetBlock s.tick

/-! ### The end of a run -/

theorem runEnded_iff (s : State) : s.runEnded = true ↔ s.host = [] ∧ s.inflight = none := by
  simp [State.runEnded, busy_eq]

/-- Settles O40: a host with no script idles, and an idle edge moves only the draw index, which no read sees. -/
theorem endedRunStaysEnded : Obligations.EndedRunStaysEnded := by
  intro s hended
  obtain ⟨hhost, hnone⟩ := (runEnded_iff s).mp hended
  have hedge : s.edge = .idle := by simp [edge_idle_iff, State.pins, hhost, Pins.idle, hnone]
  refine ⟨s.tick, step_of_idle hedge, (runEnded_iff _).mpr ⟨?_, hnone⟩, ?_⟩
  · simp [State.hostNext, hhost]
  · simp only [State.observation, readPort_tick hnone]

end Sys2Proof.Machine
